-- ==== Sys2Proof/Config.lean ====
section
/-! DEFINITION. The parameters the spec leaves to a model (00_scope.md R9, 93_implementation_defined.md U5, U12, U13),
each at the default the spec names. The values every rule fixes (widths, alphabets, divisors) are not here. -/

namespace Sys2Proof

/-- Which 32-bit half of a VAX double comes first in a byte buffer: the optional parameter `VAX_HALF_ORDER`
(92_eei_decisions.md D11, 93_implementation_defined.md U13). -/
inductive HalfOrder where
  | moreSignificantFirst
  | lessSignificantFirst
  deriving DecidableEq, Repr

/-- `MAXLEN` (00_scope.md R9, D28): the longest `IN` or `OUT` of a transaction, `none` for unbounded.
DESIGN CHOICE, log entry 7: the parameter is OPEN and the model takes the spec's default. Unsafe. -/
def Config.maxLen : Option Nat := none

/-- `TEXT_LENIENT` (U5): whether S2V and S2P read a character outside their alphabet as a 0 bit.
DESIGN CHOICE, log entry 8: the spec's default, the strict reading. Safe. -/
def Config.textLenient : Bool := false

/-- `VAX_HALF_ORDER` (U13). DESIGN CHOICE, log entry 9: the spec's default (D11). Unsafe. -/
def Config.vaxHalfOrder : HalfOrder := .moreSignificantFirst

end Sys2Proof
end

