-- ==== Sys2Proof/Word.lean ====
section
/-! DEFINITION. The patterns that cross the ports of the PCU (spec 00_scope.md R12, R13). -/

namespace Sys2Proof

/-- `Byte`: an 8-bit pattern (R13). -/
abbrev Byte := BitVec 8

/-- `W16`: a 16-bit pattern (R13). -/
abbrev W16 := BitVec 16

/-- `W32`: a 32-bit pattern, an integer or a binary32 value seen as bits (R13, R102). -/
abbrev W32 := BitVec 32

/-- `W64`: a 64-bit pattern, an integer or a binary64 value seen as bits (R13, R102). -/
abbrev W64 := BitVec 64

/-- `Bit`: a boolean, the document's false and true (R13). -/
abbrev Bit := Bool

/-- `Char` of the spec: an 8-bit ASCII character code (R13, 92_eei_decisions.md D5). -/
abbrev CharCode := BitVec 8

/-- The command word `CW`: 64 bits, one length and one format (R70). -/
abbrev CommandWord := BitVec 64

end Sys2Proof
end

