-- ==== Sys2Proof/Syntax.lean ====
section
/-! DEFINITION. The syntax of the PCU: bit orders, the 24 operations of spec/opcode_table.json with the fields each
reads, the fields of a command word, and the reasons a command word is illegal (30_encoding.md). -/

namespace Sys2Proof

/-- The bit-order flag (30_encoding.md R72, 41_bit_vector.md R130). -/
inductive BitOrder where
  /-- index 0 = most significant bit -/
  | msbFirst
  /-- index 0 = least significant bit -/
  | lsbFirst
  deriving DecidableEq, Repr

/-- The 24 operations (30_encoding.md R76), each with the fields of the command word that it reads: the bit order
`ORD`, the bit count `N`, the byte offset `OFF`. The operand proper is `IN`, not part of the command word (R78). -/
inductive Instr where
  /-- ENC.I16 (40_fixed_width.md R105) -/
  | encI16
  /-- ENC.I32 (R106) -/
  | encI32
  /-- ENC.I64 (R107) -/
  | encI64
  /-- ENC.F32 (R108) -/
  | encF32
  /-- ENC.F64 (R109) -/
  | encF64
  /-- DEC.I16 (R110) -/
  | decI16
  /-- DEC.I32 (R111) -/
  | decI32
  /-- DEC.I64 (R112) -/
  | decI64
  /-- DEC.F32 (R113) -/
  | decF32
  /-- DEC.F64 (R114) -/
  | decF64
  /-- B2V.B (41_bit_vector.md R131) -/
  | b2vB (ord : BitOrder) (n : Nat)
  /-- B2V.W (R132) -/
  | b2vW (ord : BitOrder) (n : Nat)
  /-- V2B.B (R133) -/
  | v2bB (ord : BitOrder)
  /-- V2B.W (R134) -/
  | v2bW (ord : BitOrder)
  /-- MID.ENC (42_legacy_format.md R152) -/
  | midEnc
  /-- VAXD.ENC (R165) -/
  | vaxdEnc
  /-- R50.ENC (R173) -/
  | r50Enc
  /-- MID.DEC (R153) -/
  | midDec (off : Nat)
  /-- VAXD.DEC (R163) -/
  | vaxdDec (off : Nat)
  /-- R50.DEC (R171) -/
  | r50Dec
  /-- S2V (43_textual_binary.md R191) -/
  | s2v
  /-- S2P (R193) -/
  | s2p
  /-- V2S (R192) -/
  | v2s
  /-- P2S (R194) -/
  | p2s
  deriving DecidableEq, Repr

/-- The fields of a command word (30_encoding.md R70), most significant first. -/
structure Fields where
  /-- `OP`, bits 63:56 -/
  op : BitVec 8
  /-- `ORD`, bit 55 -/
  ord : BitVec 1
  /-- `RSV1`, bit 54 -/
  rsv1 : BitVec 1
  /-- `N`, bits 53:48 -/
  n : BitVec 6
  /-- `RSV2`, bits 47:32 -/
  rsv2 : BitVec 16
  /-- `OFF`, bits 31:0 -/
  off : BitVec 32
  deriving DecidableEq, Repr

/-- Why a command word is illegal: the three cases (a), (b), (c) of 30_encoding.md R79. All three give the one
status ILLEGAL_COMMAND; the name is for the reader. -/
inductive IllegalReason where
  /-- (a) `OP` is none of the 24 values -/
  | unknownOp
  /-- (b) `RSV1` or `RSV2` is not zero -/
  | reservedField
  /-- (c) a field the operation does not read is not zero -/
  | unusedField
  deriving DecidableEq, Repr

end Sys2Proof
end

