-- ==== Sys2Proof/WellFormed.lean ====
section
/-! DEFINITION. Which instructions have a command word: the fields fit (30_encoding.md R73, R74, R83). -/

namespace Sys2Proof

/-- The fields of the instruction fit the command word: `N` in 6 bits, `OFF` in 32 (R83: the assembler rejects `n`
above 63 and `off` above 2^32 - 1). An `N` outside the operation's own range is well formed: it gives BAD_LENGTH when
it runs (R73). -/
def Instr.wellFormed : Instr → Bool
  | .encI16 => true
  | .encI32 => true
  | .encI64 => true
  | .encF32 => true
  | .encF64 => true
  | .decI16 => true
  | .decI32 => true
  | .decI64 => true
  | .decF32 => true
  | .decF64 => true
  | .b2vB _ n => decide (n < 2 ^ 6)
  | .b2vW _ n => decide (n < 2 ^ 6)
  | .v2bB _ => true
  | .v2bW _ => true
  | .midEnc => true
  | .vaxdEnc => true
  | .r50Enc => true
  | .midDec off => decide (off < 2 ^ 32)
  | .vaxdDec off => decide (off < 2 ^ 32)
  | .r50Dec => true
  | .s2v => true
  | .s2p => true
  | .v2s => true
  | .p2s => true

end Sys2Proof
end

