-- ==== Sys2Proof/Decode.lean ====
section
/-! DEFINITION. The command decoder and encoder (30_encoding.md R70 to R83): total on every 64-bit word, every illegal
word rejected by the case of R79 it falls under. -/

namespace Sys2Proof

/-- Splits a command word into its fields (R70). -/
def Fields.ofWord (w : CommandWord) : Fields where
  op := w.extractLsb' 56 8
  ord := w.extractLsb' 55 1
  rsv1 := w.extractLsb' 54 1
  n := w.extractLsb' 48 6
  rsv2 := w.extractLsb' 32 16
  off := w.extractLsb' 0 32

/-- Joins the fields into a command word: the concatenation of R70 and R83. -/
def Fields.toWord (f : Fields) : CommandWord :=
  f.op ++ f.ord ++ f.rsv1 ++ f.n ++ f.rsv2 ++ f.off

/-- `ORD` = 0 is MSB_FIRST, `ORD` = 1 is LSB_FIRST (R72). -/
def BitOrder.ofBit (b : BitVec 1) : BitOrder :=
  if b = 0#1 then .msbFirst else .lsbFirst

/-- The `ORD` bit of a bit order (R72). -/
def BitOrder.toBit : BitOrder → BitVec 1
  | .msbFirst => 0#1
  | .lsbFirst => 1#1

/-- An operation that reads no field: `ORD`, `N` and `OFF` must be 0 (R79 c). -/
def decodePlain (f : Fields) (i : Instr) : Except IllegalReason Instr :=
  if f.ord = 0 ∧ f.n = 0 ∧ f.off = 0 then .ok i else .error .unusedField

/-- An operation that reads `ORD` and `N`: `OFF` must be 0 (R79 c). -/
def decodeOrdN (f : Fields) (i : BitOrder → Nat → Instr) : Except IllegalReason Instr :=
  if f.off = 0 then .ok (i (BitOrder.ofBit f.ord) f.n.toNat) else .error .unusedField

/-- An operation that reads `ORD`: `N` and `OFF` must be 0 (R79 c). -/
def decodeOrd (f : Fields) (i : BitOrder → Instr) : Except IllegalReason Instr :=
  if f.n = 0 ∧ f.off = 0 then .ok (i (BitOrder.ofBit f.ord)) else .error .unusedField

/-- An operation that reads `OFF`: `ORD` and `N` must be 0 (R79 c). -/
def decodeOff (f : Fields) (i : Nat → Instr) : Except IllegalReason Instr :=
  if f.ord = 0 ∧ f.n = 0 then .ok (i f.off.toNat) else .error .unusedField

/-- The opcode map (R76). `OP` is compared whole (R71). -/
def decodeOp (f : Fields) : Except IllegalReason Instr :=
  match f.op.toNat with
  | 0x00 => decodePlain f .encI16
  | 0x01 => decodePlain f .encI32
  | 0x02 => decodePlain f .encI64
  | 0x03 => decodePlain f .encF32
  | 0x04 => decodePlain f .encF64
  | 0x08 => decodePlain f .decI16
  | 0x09 => decodePlain f .decI32
  | 0x0A => decodePlain f .decI64
  | 0x0B => decodePlain f .decF32
  | 0x0C => decodePlain f .decF64
  | 0x10 => decodeOrdN f .b2vB
  | 0x11 => decodeOrdN f .b2vW
  | 0x18 => decodeOrd f .v2bB
  | 0x19 => decodeOrd f .v2bW
  | 0x20 => decodePlain f .midEnc
  | 0x21 => decodePlain f .vaxdEnc
  | 0x22 => decodePlain f .r50Enc
  | 0x28 => decodeOff f .midDec
  | 0x29 => decodeOff f .vaxdDec
  | 0x2A => decodePlain f .r50Dec
  | 0x30 => decodePlain f .s2v
  | 0x31 => decodePlain f .s2p
  | 0x38 => decodePlain f .v2s
  | 0x39 => decodePlain f .p2s
  | _ => .error .unknownOp

/-- Decodes the fields: the reserved ones must be 0 (R75, R79 b). -/
def decodeFields (f : Fields) : Except IllegalReason Instr :=
  if f.rsv1 = 0 ∧ f.rsv2 = 0 then decodeOp f else .error .reservedField

/-- The decoder: exactly one 64-bit word per command (R81). -/
def decode (cw : CommandWord) : Except IllegalReason Instr :=
  decodeFields (Fields.ofWord cw)

/-- The instruction whose bits are `w`, as spec/opcode_table.json numbers them: the command word is one 64-bit value
(R70), handed over whole and not laid out in a memory (R54), so there is no byte order to choose. -/
def decodeTableWord (nbits w : Nat) : Option Instr :=
  match decode (BitVec.ofNat 64 (w % 2 ^ nbits)) with
  | .ok i => some i
  | .error _ => none

/-- The command word with operation code `op` and no other field set. -/
def Fields.ofOp (op : BitVec 8) : Fields :=
  { op := op, ord := 0, rsv1 := 0, n := 0, rsv2 := 0, off := 0 }

/-- The fields of an instruction's command word (R76, R83): a field the operation does not read is 0. -/
def Instr.fields : Instr → Fields
  | .encI16 => Fields.ofOp 0x00
  | .encI32 => Fields.ofOp 0x01
  | .encI64 => Fields.ofOp 0x02
  | .encF32 => Fields.ofOp 0x03
  | .encF64 => Fields.ofOp 0x04
  | .decI16 => Fields.ofOp 0x08
  | .decI32 => Fields.ofOp 0x09
  | .decI64 => Fields.ofOp 0x0A
  | .decF32 => Fields.ofOp 0x0B
  | .decF64 => Fields.ofOp 0x0C
  | .b2vB ord n => { Fields.ofOp 0x10 with ord := ord.toBit, n := BitVec.ofNat 6 n }
  | .b2vW ord n => { Fields.ofOp 0x11 with ord := ord.toBit, n := BitVec.ofNat 6 n }
  | .v2bB ord => { Fields.ofOp 0x18 with ord := ord.toBit }
  | .v2bW ord => { Fields.ofOp 0x19 with ord := ord.toBit }
  | .midEnc => Fields.ofOp 0x20
  | .vaxdEnc => Fields.ofOp 0x21
  | .r50Enc => Fields.ofOp 0x22
  | .midDec off => { Fields.ofOp 0x28 with off := BitVec.ofNat 32 off }
  | .vaxdDec off => { Fields.ofOp 0x29 with off := BitVec.ofNat 32 off }
  | .r50Dec => Fields.ofOp 0x2A
  | .s2v => Fields.ofOp 0x30
  | .s2p => Fields.ofOp 0x31
  | .v2s => Fields.ofOp 0x38
  | .p2s => Fields.ofOp 0x39

/-- The encoder: the command word of a well-formed instruction (R83). -/
def encode (i : Instr) : CommandWord :=
  i.fields.toWord

end Sys2Proof
end

