-- ==== Sys2Proof/Machine/State.lean ====
section
/-! DEFINITION. The state: the traffic at the five ports of the PCU (10_state.md R26). The unit itself has no register,
program counter, flag, mode or memory (10_state.md R20 to R28, 20_memory.md R40); its two ROM tables are constants and
therefore definitions (70_reset_and_hazards.md R241; Machine/Operands.lean). -/

namespace Sys2Proof.Machine

/-- The item types of the sequences that cross the ports (00_scope.md R13). -/
inductive ItemType where
  | byte | w16 | w32 | w64 | bit | char
  deriving DecidableEq, Repr

/-- A typed sequence `Seq(T)` (R13), as `IN` and `OUT` carry it (10_state.md R32). -/
inductive Items where
  /-- `[]` with no item type: an absent input (R26: taken as `[]`), and `OUT` of every response whose status is not OK
  (60_exceptions.md R214). Log entry 6. -/
  | empty
  | bytes (items : List Byte)
  | w16s (items : List W16)
  | w32s (items : List W32)
  | w64s (items : List W64)
  | bits (items : List Bit)
  | chars (items : List CharCode)
  deriving DecidableEq, Repr

/-- The status codes (60_exceptions.md R210); exactly six (93_implementation_defined.md U10). -/
inductive Status where
  | ok
  | outOfRange
  | illegalCommand
  | badLength
  | badSymbol
  | badCode
  deriving DecidableEq, Repr

/-- What one transaction answers: `STATUS` and `OUT` (00_scope.md R10, R11). -/
structure Result where
  status : Status
  out : Items
  deriving DecidableEq, Repr

/-- A command word that no operation has: illegal by 30_encoding.md R79. -/
abbrev IllegalWord := { cw : CommandWord // (decode cw).isOk = false }

/-- A command at the input ports (R26), as R32 asks: each operation is a constructor that carries the fields it reads and its
typed input, so an ill-typed command is not a term. The input `none` is `IN_PRESENT` = 0. What stands at `IN` of a command word
that no operation has is of any type, since no operation decides one; nothing reads it (60_exceptions.md R212). -/
inductive Op where
  | encI16 (input : Option (List W16))
  | encI32 (input : Option (List W32))
  | encI64 (input : Option (List W64))
  | encF32 (input : Option (List W32))
  | encF64 (input : Option (List W64))
  | decI16 (input : Option (List Byte))
  | decI32 (input : Option (List Byte))
  | decI64 (input : Option (List Byte))
  | decF32 (input : Option (List Byte))
  | decF64 (input : Option (List Byte))
  | b2vB (ord : BitOrder) (n : BitVec 6) (input : Option (List Byte))
  | b2vW (ord : BitOrder) (n : BitVec 6) (input : Option (List W32))
  | v2bB (ord : BitOrder) (input : Option (List Bit))
  | v2bW (ord : BitOrder) (input : Option (List Bit))
  | midEnc (input : Option (List W32))
  | vaxdEnc (input : Option (List W64))
  | r50Enc (input : Option (List CharCode))
  | midDec (off : BitVec 32) (input : Option (List Byte))
  | vaxdDec (off : BitVec 32) (input : Option (List Byte))
  | r50Dec (input : Option (List W16))
  | s2v (input : Option (List CharCode))
  | s2p (input : Option (List CharCode))
  | v2s (input : Option (List Bit))
  | p2s (input : Option (List Byte))
  | illegal (word : IllegalWord) (input : Option Items)
  deriving DecidableEq, Repr

/-- One command and the host it comes from, to which its response goes (60_exceptions.md R224). The number of the host is
the model's own (log entry 1). -/
structure Request where
  requester : Nat
  op : Op
  deriving DecidableEq, Repr

/-- One response at the output ports (R26): `STATUS`, `OUT`, and the host it goes to. -/
structure Response where
  requester : Nat
  result : Result
  deriving DecidableEq, Repr

/-- The traffic at the ports. `pending`: the outstanding transactions (20_memory.md R56), the next one first; as any
list may stand here, so may any interleaving of the hosts' commands (R51; log entry 3). `delivered`: the responses
handed to the hosts, the latest last; no step reads it, the PCU keeps nothing of a finished transaction (10_state.md
R28, R30; log entry 1). -/
structure State where
  pending : List Request
  delivered : List Response
  deriving DecidableEq, Repr

/-- After reset the unit is idle: no command is outstanding and the output ports carry no value (10_state.md R29,
70_reset_and_hazards.md R240). -/
def State.reset : State := { pending := [], delivered := [] }

/-- How a step can get stuck. -/
inductive Fault where
  /-- `exec` was asked for an instruction while no command is outstanding: there is no transaction to run. No step
  raises it. Safe (log entry 5). -/
  | noCommand
  deriving DecidableEq, Repr

/-- Why a step gives a command no meaning. -/
inductive Refusal where
  /-- Raised by an arm of `exec` whose instruction has no meaning yet; none is left. Safe. -/
  | notModelled (mnemonic : String)
  /-- Raised by `exec` when it is asked for an operation whose `T_in` is not the item type of the next command's input. No
step raises it: it asks for the operation of the command, whose input has its type by construction (10_state.md R32). Safe
(log entry 5). -/
  | illTypedOperand
  /-- Raised by every transaction whose `IN` or `OUT` is longer than `MAXLEN` (92_eei_decisions.md D28); never with the
  default, unbounded. Safe (log entry 7). -/
  | exceedsMaxLen
  deriving DecidableEq, Repr

end Sys2Proof.Machine
end

