-- ==== Sys2Proof/Machine/Ops.lean ====
section
/-! DEFINITION. The shared operations: reading the operand port, completing a transaction, raising a condition
(60_exceptions.md R214), issuing a command, reset; and the byte layouts of 20_memory.md R42. -/

namespace Sys2Proof.Machine

/-- The number of items of a sequence (00_scope.md R13). -/
def Items.length : Items → Nat
  | .empty => 0
  | .bytes xs => xs.length
  | .w16s xs => xs.length
  | .w32s xs => xs.length
  | .w64s xs => xs.length
  | .bits xs => xs.length
  | .chars xs => xs.length

/-- The item type of a sequence; none for the `[]` that has no type. -/
def Items.itemType : Items → Option ItemType
  | .empty => none
  | .bytes _ => some .byte
  | .w16s _ => some .w16
  | .w32s _ => some .w32
  | .w64s _ => some .w64
  | .bits _ => some .bit
  | .chars _ => some .char

/-- The sequence can stand at a port of item type `t`: it has that type, or no item and no type (10_state.md R32). -/
def Items.hasType (xs : Items) (t : ItemType) : Bool :=
  match xs.itemType with
  | none => true
  | some t' => decide (t' = t)

/-- `IN` as a byte sequence. -/
def Items.asBytes : Items → Option (List Byte)
  | .bytes xs => some xs
  | .empty => some []
  | .w16s _ | .w32s _ | .w64s _ | .bits _ | .chars _ => none

/-- `IN` as 16-bit patterns. -/
def Items.asW16s : Items → Option (List W16)
  | .w16s xs => some xs
  | .empty => some []
  | .bytes _ | .w32s _ | .w64s _ | .bits _ | .chars _ => none

/-- `IN` as 32-bit patterns. -/
def Items.asW32s : Items → Option (List W32)
  | .w32s xs => some xs
  | .empty => some []
  | .bytes _ | .w16s _ | .w64s _ | .bits _ | .chars _ => none

/-- `IN` as 64-bit patterns. -/
def Items.asW64s : Items → Option (List W64)
  | .w64s xs => some xs
  | .empty => some []
  | .bytes _ | .w16s _ | .w32s _ | .bits _ | .chars _ => none

/-- `IN` as a bit vector. -/
def Items.asBits : Items → Option (List Bit)
  | .bits xs => some xs
  | .empty => some []
  | .bytes _ | .w16s _ | .w32s _ | .w64s _ | .chars _ => none

/-- `IN` as a string. -/
def Items.asChars : Items → Option (List CharCode)
  | .chars xs => some xs
  | .empty => some []
  | .bytes _ | .w16s _ | .w32s _ | .w64s _ | .bits _ => none

/-- `CW` of a command (10_state.md R26). -/
def Op.cw : Op → CommandWord
  | .encI16 _ => encode .encI16
  | .encI32 _ => encode .encI32
  | .encI64 _ => encode .encI64
  | .encF32 _ => encode .encF32
  | .encF64 _ => encode .encF64
  | .decI16 _ => encode .decI16
  | .decI32 _ => encode .decI32
  | .decI64 _ => encode .decI64
  | .decF32 _ => encode .decF32
  | .decF64 _ => encode .decF64
  | .b2vB ord n _ => encode (.b2vB ord n.toNat)
  | .b2vW ord n _ => encode (.b2vW ord n.toNat)
  | .v2bB ord _ => encode (.v2bB ord)
  | .v2bW ord _ => encode (.v2bW ord)
  | .midEnc _ => encode .midEnc
  | .vaxdEnc _ => encode .vaxdEnc
  | .r50Enc _ => encode .r50Enc
  | .midDec off _ => encode (.midDec off.toNat)
  | .vaxdDec off _ => encode (.vaxdDec off.toNat)
  | .r50Dec _ => encode .r50Dec
  | .s2v _ => encode .s2v
  | .s2p _ => encode .s2p
  | .v2s _ => encode .v2s
  | .p2s _ => encode .p2s
  | .illegal word _ => word.1

/-- What stands at `IN` of a command; none when `IN_PRESENT` = 0 (R26). -/
def Op.input : Op → Option Items
  | .encI16 input => input.map .w16s
  | .encI32 input => input.map .w32s
  | .encI64 input => input.map .w64s
  | .encF32 input => input.map .w32s
  | .encF64 input => input.map .w64s
  | .decI16 input => input.map .bytes
  | .decI32 input => input.map .bytes
  | .decI64 input => input.map .bytes
  | .decF32 input => input.map .bytes
  | .decF64 input => input.map .bytes
  | .b2vB _ _ input => input.map .bytes
  | .b2vW _ _ input => input.map .w32s
  | .v2bB _ input => input.map .bits
  | .v2bW _ input => input.map .bits
  | .midEnc input => input.map .w32s
  | .vaxdEnc input => input.map .w64s
  | .r50Enc input => input.map .chars
  | .midDec _ input => input.map .bytes
  | .vaxdDec _ input => input.map .bytes
  | .r50Dec input => input.map .w16s
  | .s2v input => input.map .chars
  | .s2p input => input.map .chars
  | .v2s input => input.map .bits
  | .p2s input => input.map .bytes
  | .illegal _ input => input

/-- `CW` of a request (R26). -/
def Request.cw (r : Request) : CommandWord :=
  r.op.cw

/-- `IN_PRESENT` of a request (R26). -/
def Request.inPresent (r : Request) : Bool :=
  r.op.input.isSome

/-- `IN` of a request (R26); `[]` when there is none. -/
def Request.input (r : Request) : Items :=
  r.op.input.getD .empty

/-- The operand of a command: `IN` is ignored and taken as `[]` when `IN_PRESENT` = 0, for every operation
(10_state.md R26; 60_exceptions.md R217). -/
def Request.operand (r : Request) : Items :=
  if r.inPresent then r.input else .empty

/-- A transaction that completes: `STATUS` = OK and `OUT` holds the result (60_exceptions.md R210). -/
def Result.complete (out : Items) : Result :=
  { status := .ok, out := out }

/-- TAKING AN EXCEPTION: `raise <STATUS>` (00_scope.md R15; 60_exceptions.md R214). The transaction ends with that
status and `OUT` = []; nothing is saved, nothing is recorded and control goes nowhere. There is no return from it and
nothing to restore: the unit takes the next command at once (R222), and no status is sticky (R223). -/
def Result.raise (status : Status) : Result :=
  { status := status, out := .empty }

/-- The 4-bit code of a status (60_exceptions.md R210). -/
def Status.code : Status → BitVec 4
  | .ok => 0
  | .outOfRange => 1
  | .illegalCommand => 2
  | .badLength => 3
  | .badSymbol => 4
  | .badCode => 5

/-- A sequence fits the port (00_scope.md R9, 92_eei_decisions.md D28). -/
def Items.fits (xs : Items) (maxLen : Option Nat) : Bool :=
  match maxLen with
  | none => true
  | some m => decide (xs.length ≤ m)

/-- The state once the command `req`, with `rest` outstanding after it, is answered by `r`: it is no longer outstanding and
its host has the response. Nothing else changes (60_exceptions.md R214; 20_memory.md R47). -/
def State.answer (s : State) (req : Request) (rest : List Request) (r : Result) : State :=
  { pending := rest, delivered := s.delivered ++ [{ requester := req.requester, result := r }] }

/-- Delivers the response of the next outstanding command. -/
def State.respond (s : State) (r : Result) : Host.Outcome State Fault Refusal :=
  match s.pending with
  | [] => .fault .noCommand
  | req :: rest =>
    if req.operand.fits Config.maxLen && r.out.fits Config.maxLen then .next (s.answer req rest r)
    else .refused .exceedsMaxLen

/-- One transaction (00_scope.md R10): `IN` of the next outstanding command is read at the item type `view` names
(10_state.md R32) and the response computed from it alone is delivered. -/
def State.transact {α : Type} (s : State) (view : Items → Option α) (op : α → Result) :
    Host.Outcome State Fault Refusal :=
  match s.pending with
  | [] => .fault .noCommand
  | req :: _ =>
    match view req.operand with
    | none => .refused .illTypedOperand
    | some a => s.respond (op a)

/-- A host issues a command (00_scope.md R10): it becomes outstanding, after those that already are. -/
def State.submit (s : State) (r : Request) : State :=
  { s with pending := s.pending ++ [r] }

/-- Reset (70_reset_and_hazards.md R240, R242): the transactions in flight are abandoned without a response; there is no
state to set. An input of the machine, no part of a step (log entry 10). -/
def State.applyReset (s : State) : State :=
  { s with pending := [] }

/-- `MemRead` of one byte (00_scope.md R15): `bs[a]`. Every caller has checked `a < len(bs)` first. -/
def byteAt (bs : List Byte) (a : Nat) : Byte :=
  bs.getD a 0

/-- Byte k of a big-endian number v of width w holds `v[w-1-8k : w-8-8k]` (20_memory.md R42, R43). -/
def bigEndianBytes {w : Nat} (v : BitVec w) : List Byte :=
  (List.range (w / 8)).map fun k => v.extractLsb' (w - 8 - 8 * k) 8

/-- The number whose big-endian bytes are `bs`: `bs[0]` the most significant (40_fixed_width.md R104). -/
def bigEndianWord (w : Nat) (bs : List Byte) : BitVec w :=
  BitVec.ofNat w (bs.foldl (fun acc b => acc * 256 + b.toNat) 0)

/-- The four bytes of a 32-bit pattern in PDP-11 middle-endian order (20_memory.md R42; 42_legacy_format.md R151). -/
def middleEndianBytes (v : W32) : List Byte :=
  [v.extractLsb' 16 8, v.extractLsb' 24 8, v.extractLsb' 0 8, v.extractLsb' 8 8]

/-- The 32-bit pattern whose middle-endian bytes are `b0 .. b3`: b2 + b3*256 + b0*65536 + b1*16777216 (R153). -/
def middleEndianWord (b0 b1 b2 b3 : Byte) : W32 :=
  BitVec.ofNat 32 (b2.toNat + b3.toNat * 256 + b0.toNat * 65536 + b1.toNat * 16777216)

/-- The eight bytes of a VAX pattern V: each 32-bit half in middle-endian order, the more significant half first unless
`VAX_HALF_ORDER` says otherwise (42_legacy_format.md R161; 92_eei_decisions.md D11). -/
def vaxBytes (order : HalfOrder) (V : W64) : List Byte :=
  let hi := middleEndianBytes (V.extractLsb' 32 32)
  let lo := middleEndianBytes (V.extractLsb' 0 32)
  match order with
  | .moreSignificantFirst => hi ++ lo
  | .lessSignificantFirst => lo ++ hi

/-- The VAX pattern V whose eight bytes stand at index `a` of `bs` (R161, R163). -/
def vaxWord (order : HalfOrder) (bs : List Byte) (a : Nat) : W64 :=
  let first := middleEndianWord (byteAt bs a) (byteAt bs (a + 1)) (byteAt bs (a + 2)) (byteAt bs (a + 3))
  let second := middleEndianWord (byteAt bs (a + 4)) (byteAt bs (a + 5)) (byteAt bs (a + 6)) (byteAt bs (a + 7))
  match order with
  | .moreSignificantFirst => first ++ second
  | .lessSignificantFirst => second ++ first

end Sys2Proof.Machine
end

