-- ==== Sys2Proof/Machine/Operands.lean ====
section
/-! DEFINITION. The operand forms: the item types of `IN` and `OUT` per operation (10_state.md R26), the ROM tables of
the Radix-50 codec (R23, R24), the bits of a value and the characters of the two alphabets. -/

namespace Sys2Proof.Machine

/-- `T_in` of an operation (10_state.md R26). -/
def inputType : Instr → ItemType
  | .encI16 => .w16
  | .encI32 => .w32
  | .encI64 => .w64
  | .encF32 => .w32
  | .encF64 => .w64
  | .decI16 => .byte
  | .decI32 => .byte
  | .decI64 => .byte
  | .decF32 => .byte
  | .decF64 => .byte
  | .b2vB _ _ => .byte
  | .b2vW _ _ => .w32
  | .v2bB _ => .bit
  | .v2bW _ => .bit
  | .midEnc => .w32
  | .vaxdEnc => .w64
  | .r50Enc => .char
  | .midDec _ => .byte
  | .vaxdDec _ => .byte
  | .r50Dec => .w16
  | .s2v => .char
  | .s2p => .char
  | .v2s => .bit
  | .p2s => .byte

/-- `T_out` of an operation (10_state.md R26). -/
def outputType : Instr → ItemType
  | .encI16 => .byte
  | .encI32 => .byte
  | .encI64 => .byte
  | .encF32 => .byte
  | .encF64 => .byte
  | .decI16 => .w16
  | .decI32 => .w32
  | .decI64 => .w64
  | .decF32 => .w32
  | .decF64 => .w64
  | .b2vB _ _ => .bit
  | .b2vW _ _ => .bit
  | .v2bB _ => .byte
  | .v2bW _ => .w32
  | .midEnc => .byte
  | .vaxdEnc => .byte
  | .r50Enc => .w16
  | .midDec _ => .w32
  | .vaxdDec _ => .w64
  | .r50Dec => .char
  | .s2v => .bit
  | .s2p => .byte
  | .v2s => .char
  | .p2s => .char

/-- The input port read at an item type: none when what stands there has another type. -/
def portAs {α : Type} (view : Items → Option α) : Option Items → Option (Option α)
  | none => some none
  | some xs => (view xs).map some

/-- The command of an operation with this input; none when the input has another item type than `T_in` (10_state.md R32). -/
def Op.ofInstr (input : Option Items) : Instr → Option Op
  | .encI16 => (portAs Items.asW16s input).map .encI16
  | .encI32 => (portAs Items.asW32s input).map .encI32
  | .encI64 => (portAs Items.asW64s input).map .encI64
  | .encF32 => (portAs Items.asW32s input).map .encF32
  | .encF64 => (portAs Items.asW64s input).map .encF64
  | .decI16 => (portAs Items.asBytes input).map .decI16
  | .decI32 => (portAs Items.asBytes input).map .decI32
  | .decI64 => (portAs Items.asBytes input).map .decI64
  | .decF32 => (portAs Items.asBytes input).map .decF32
  | .decF64 => (portAs Items.asBytes input).map .decF64
  | .b2vB ord n => (portAs Items.asBytes input).map (.b2vB ord (BitVec.ofNat 6 n))
  | .b2vW ord n => (portAs Items.asW32s input).map (.b2vW ord (BitVec.ofNat 6 n))
  | .v2bB ord => (portAs Items.asBits input).map (.v2bB ord)
  | .v2bW ord => (portAs Items.asBits input).map (.v2bW ord)
  | .midEnc => (portAs Items.asW32s input).map .midEnc
  | .vaxdEnc => (portAs Items.asW64s input).map .vaxdEnc
  | .r50Enc => (portAs Items.asChars input).map .r50Enc
  | .midDec off => (portAs Items.asBytes input).map (.midDec (BitVec.ofNat 32 off))
  | .vaxdDec off => (portAs Items.asBytes input).map (.vaxdDec (BitVec.ofNat 32 off))
  | .r50Dec => (portAs Items.asW16s input).map .r50Dec
  | .s2v => (portAs Items.asChars input).map .s2v
  | .s2p => (portAs Items.asChars input).map .s2p
  | .v2s => (portAs Items.asBits input).map .v2s
  | .p2s => (portAs Items.asBytes input).map .p2s

/-- The command that stands at the ports (R26); none when an operation's port would have to carry items of another type, which
the port cannot express (R32). -/
def Op.ofPorts (cw : CommandWord) (input : Option Items) : Option Op :=
  match h : decode cw with
  | .ok i => Op.ofInstr input i
  | .error _ => some (.illegal ⟨cw, by rw [h]; rfl⟩ input)

/-- `ENCW(W, ws)` (40_fixed_width.md R103): the big-endian bytes of each word, in the order of the words. -/
def encodeWords {w : Nat} (ws : List (BitVec w)) : List Byte :=
  ws.flatMap bigEndianBytes

/-- The first `n` words of `w` bits of a byte sequence, big-endian. -/
def takeWords (w : Nat) : Nat → List Byte → List (BitVec w)
  | 0, _ => []
  | n + 1, bs => bigEndianWord w (bs.take (w / 8)) :: takeWords w n (bs.drop (w / 8))

/-- `DECW(W, bs)` (R104): floor(len / (W/8)) words; the trailing bytes that do not complete a word are dropped. -/
def decodeWords (w : Nat) (bs : List Byte) : List (BitVec w) :=
  takeWords w (bs.length / (w / 8)) bs

/-- The low `n` bits of a value as a bit vector (41_bit_vector.md R131, R132): under LSB_FIRST index k holds bit k,
under MSB_FIRST index n-1-k holds bit k. -/
def bitsOf (ord : BitOrder) (n : Nat) {w : Nat} (v : BitVec w) : List Bit :=
  match ord with
  | .lsbFirst => (List.range n).map fun k => v.getLsbD k
  | .msbFirst => (List.range n).map fun i => v.getLsbD (n - 1 - i)

/-- The number whose bit at index i contributes 2^i (R137, LSB_FIRST). -/
def natOfBitsLsb : List Bit → Nat
  | [] => 0
  | b :: bs => b.toNat + 2 * natOfBitsLsb bs

/-- The value of a bit vector (R133, R134, R137): under MSB_FIRST index i contributes 2^(len-1-i), under LSB_FIRST it
contributes 2^i. -/
def natOfBits (ord : BitOrder) (bs : List Bit) : Nat :=
  match ord with
  | .lsbFirst => natOfBitsLsb bs
  | .msbFirst => natOfBitsLsb bs.reverse

/-- ROM table `DIVISORS` (10_state.md R23). -/
def divisors : List Nat := [1600, 40, 1]

/-- ROM table `ALPHABET` (10_state.md R24; 42_legacy_format.md R170, column "code out"): 40 character codes. -/
def alphabet : List CharCode :=
  [0x20] ++ (List.range 26).map (fun k => BitVec.ofNat 8 (0x41 + k)) ++ [0x24, 0x2E, 0x20]
    ++ (List.range 10).map (fun k => BitVec.ofNat 8 (0x30 + k))

/-- `R50VAL(c)` (R174), the inverse map of `ALPHABET`; none for a character outside the Radix-50 alphabet. -/
def r50Value (c : CharCode) : Option Nat :=
  let n := c.toNat
  if n = 0x20 then some 0
  else if 0x41 ≤ n ∧ n ≤ 0x5A then some (n - 0x40)
  else if 0x61 ≤ n ∧ n ≤ 0x7A then some (n - 0x60)
  else if n = 0x24 then some 27
  else if n = 0x2E then some 28
  else if 0x30 ≤ n ∧ n ≤ 0x39 then some (n - 0x30 + 30)
  else none

/-- The bit of a character of a '0'/'1' string (43_textual_binary.md R190); none for another character, unless
`TEXT_LENIENT` makes it a 0 bit (93_implementation_defined.md U5). -/
def bitOfChar (lenient : Bool) (c : CharCode) : Option Bit :=
  if c = 0x31 then some true
  else if c = 0x30 then some false
  else if lenient then some false
  else none

/-- The character of a bit (R192). -/
def charOfBit (b : Bit) : CharCode :=
  if b then 0x31 else 0x30

end Sys2Proof.Machine
end

