-- ==== Sys2Proof/Machine/BitVector.lean ====
section
/-! DEFINITION. BVC, the bit-vector codec (41_bit_vector.md). An absent `IN` is `[]` and so has a bad length (60_exceptions.md
R213, R217). -/

namespace Sys2Proof.Machine

/-- `toBits` (R131, R132): one operand, and 1 ≤ N ≤ its width; otherwise BAD_LENGTH. -/
def toBits (ord : BitOrder) (n : Nat) {w : Nat} (xs : List (BitVec w)) : Result :=
  match xs with
  | [v] => if n < 1 ∨ n > w then .raise .badLength else .complete (.bits (bitsOf ord n v))
  | _ => .raise .badLength

/-- `toByteOrWord` (R133, R134): a vector of 1 to `w` bits, `out` the item type of the result; otherwise BAD_LENGTH. -/
def fromBits (ord : BitOrder) (w : Nat) (out : List (BitVec w) → Items) (xs : List Bit) : Result :=
  if xs.length < 1 ∨ xs.length > w then .raise .badLength
  else .complete (out [BitVec.ofNat w (natOfBits ord xs)])

/-- B2V.B (R131). -/
def execB2vB (ord : BitOrder) (n : Nat) (s : State) : Host.Outcome State Fault Refusal :=
  s.transact Items.asBytes (toBits ord n)

/-- B2V.W (R132). -/
def execB2vW (ord : BitOrder) (n : Nat) (s : State) : Host.Outcome State Fault Refusal :=
  s.transact Items.asW32s (toBits ord n)

/-- V2B.B (R133). -/
def execV2bB (ord : BitOrder) (s : State) : Host.Outcome State Fault Refusal :=
  s.transact Items.asBits (fromBits ord 8 .bytes)

/-- V2B.W (R134). -/
def execV2bW (ord : BitOrder) (s : State) : Host.Outcome State Fault Refusal :=
  s.transact Items.asBits (fromBits ord 32 .w32s)

end Sys2Proof.Machine
end

