-- ==== Sys2Proof/Machine/FixedWidth.lean ====
section
/-! DEFINITION. FWC, the fixed-width codec (40_fixed_width.md). No operation here raises a condition (R117); an absent
`IN` is `[]` (R116). Floats are patterns, and every pattern passes unchanged (R102). -/

namespace Sys2Proof.Machine

/-- ENC.I16 (R105). -/
def execEncI16 (s : State) : Host.Outcome State Fault Refusal :=
  s.transact Items.asW16s fun ws => .complete (.bytes (encodeWords ws))

/-- ENC.I32 (R106). -/
def execEncI32 (s : State) : Host.Outcome State Fault Refusal :=
  s.transact Items.asW32s fun ws => .complete (.bytes (encodeWords ws))

/-- ENC.I64 (R107). -/
def execEncI64 (s : State) : Host.Outcome State Fault Refusal :=
  s.transact Items.asW64s fun ws => .complete (.bytes (encodeWords ws))

/-- ENC.F32 (R108): binary32 patterns, bit for bit the function of ENC.I32. -/
def execEncF32 (s : State) : Host.Outcome State Fault Refusal :=
  s.transact Items.asW32s fun ws => .complete (.bytes (encodeWords ws))

/-- ENC.F64 (R109): binary64 patterns, bit for bit the function of ENC.I64. -/
def execEncF64 (s : State) : Host.Outcome State Fault Refusal :=
  s.transact Items.asW64s fun ws => .complete (.bytes (encodeWords ws))

/-- DEC.I16 (R110). -/
def execDecI16 (s : State) : Host.Outcome State Fault Refusal :=
  s.transact Items.asBytes fun bs => .complete (.w16s (decodeWords 16 bs))

/-- DEC.I32 (R111). -/
def execDecI32 (s : State) : Host.Outcome State Fault Refusal :=
  s.transact Items.asBytes fun bs => .complete (.w32s (decodeWords 32 bs))

/-- DEC.I64 (R112). -/
def execDecI64 (s : State) : Host.Outcome State Fault Refusal :=
  s.transact Items.asBytes fun bs => .complete (.w64s (decodeWords 64 bs))

/-- DEC.F32 (R113): binary32 patterns, bit for bit the function of DEC.I32. -/
def execDecF32 (s : State) : Host.Outcome State Fault Refusal :=
  s.transact Items.asBytes fun bs => .complete (.w32s (decodeWords 32 bs))

/-- DEC.F64 (R114): binary64 patterns, bit for bit the function of DEC.I64. -/
def execDecF64 (s : State) : Host.Outcome State Fault Refusal :=
  s.transact Items.asBytes fun bs => .complete (.w64s (decodeWords 64 bs))

end Sys2Proof.Machine
end

