-- ==== Sys2Proof/Machine/Legacy.lean ====
section
/-! DEFINITION. LFC, the legacy-format codec (42_legacy_format.md): PDP-11 middle-endian integers, VAX doubles, Radix-50.
The three share no table, intermediate value or status (R150). -/

namespace Sys2Proof.Machine

/-- An operation on a scalar: exactly one item, otherwise BAD_LENGTH (60_exceptions.md R213). -/
def onScalar {α : Type} (op : α → Result) (xs : List α) : Result :=
  match xs with
  | [x] => op x
  | _ => .raise .badLength

/-- MID.ENC (R152). -/
def midEncode (v : W32) : Result :=
  .complete (.bytes (middleEndianBytes v))

/-- MID.DEC (R153). The sum is an integer and never wraps (20_memory.md R41). -/
def midDecode (off : Nat) (bs : List Byte) : Result :=
  if off + 4 > bs.length then .raise .outOfRange
  else
    .complete (.w32s
      [middleEndianWord (byteAt bs off) (byteAt bs (off + 1)) (byteAt bs (off + 2)) (byteAt bs (off + 3))])

/-- The VAX pattern of a binary64 pattern X (R165): re-bias the exponent in the integers, saturate (R166), flush to zero
(R167), else shift the fraction left by 3, also when e = 0 and S = 1 (R168). -/
def vaxOfIeee (X : W64) : W64 :=
  let S := X.extractLsb' 63 1
  let E := X.extractLsb' 52 11
  let F := X.extractLsb' 0 52
  let e : Int := (E.toNat : Int) - 1023 + 129
  if e > 255 then S ++ BitVec.allOnes 63
  else if e < 0 ∨ (e = 0 ∧ S = 0#1) then 0#64
  else S ++ BitVec.ofInt 8 e ++ F ++ 0#3

/-- The binary64 pattern of a VAX pattern V (R163): re-bias unless e = 0 (R164), truncate the fraction by 3 bits and
force bit 0 to 1 when a discarded bit was set. No rounding: no carry reaches the exponent. -/
def ieeeOfVax (V : W64) : W64 :=
  let S := V.extractLsb' 63 1
  let e := V.extractLsb' 55 8
  let f := V.extractLsb' 0 55
  let E : BitVec 11 := if e ≠ 0 then BitVec.ofInt 11 ((e.toNat : Int) - 129 + 1023) else 0
  let sticky : BitVec 52 := if f.extractLsb' 0 3 ≠ 0 then 1 else 0
  let F := f.extractLsb' 3 52 ||| sticky
  S ++ E ++ F

/-- VAXD.ENC (R165). -/
def vaxEncode (X : W64) : Result :=
  .complete (.bytes (vaxBytes Config.vaxHalfOrder (vaxOfIeee X)))

/-- VAXD.DEC (R163). -/
def vaxDecode (off : Nat) (bs : List Byte) : Result :=
  if off + 8 > bs.length then .raise .outOfRange
  else .complete (.w64s [ieeeOfVax (vaxWord Config.vaxHalfOrder bs off)])

/-- The value of character slot `i` of R50.ENC (R173): a missing character is a space, value 0; none for a character outside
the alphabet (R174). -/
def r50SlotValue (cs : List CharCode) (i : Nat) : Option Nat :=
  match cs[i]? with
  | some c => r50Value c
  | none => some 0

/-- The values of the three slots; none when one has none. Later characters are not looked at (R173). -/
def r50Slots (cs : List CharCode) : Option (List Nat) :=
  [0, 1, 2].mapM (r50SlotValue cs)

/-- R50.ENC (R173): result = result*40 + value over the three slots; at most 63999, no wrap (R176). -/
def r50Encode (cs : List CharCode) : Result :=
  match r50Slots cs with
  | some vs => .complete (.w16s [BitVec.ofNat 16 (vs.foldl (fun acc v => acc * 40 + v) 0)])
  | none => .raise .badSymbol

/-- The symbol values of a code (R171): divide the running value by each divisor in turn and go on with the rest. -/
def r50Quotients : List Nat → Nat → List Nat
  | [], _ => []
  | d :: ds, r => r / d :: r50Quotients ds (r - r / d * d)

/-- R50.DEC (R171): BAD_CODE above 63999 (R172), else three characters of the ROM table. -/
def r50Decode (code : W16) : Result :=
  if code.toNat > 63999 then .raise .badCode
  else .complete (.chars ((r50Quotients divisors code.toNat).map fun q => alphabet.getD q 0))

/-- MID.ENC (R152). -/
def execMidEnc (s : State) : Host.Outcome State Fault Refusal :=
  s.transact Items.asW32s (onScalar midEncode)

/-- VAXD.ENC (R165). -/
def execVaxdEnc (s : State) : Host.Outcome State Fault Refusal :=
  s.transact Items.asW64s (onScalar vaxEncode)

/-- R50.ENC (R173): any number of characters. -/
def execR50Enc (s : State) : Host.Outcome State Fault Refusal :=
  s.transact Items.asChars r50Encode

/-- MID.DEC (R153). -/
def execMidDec (off : Nat) (s : State) : Host.Outcome State Fault Refusal :=
  s.transact Items.asBytes (midDecode off)

/-- VAXD.DEC (R163). -/
def execVaxdDec (off : Nat) (s : State) : Host.Outcome State Fault Refusal :=
  s.transact Items.asBytes (vaxDecode off)

/-- R50.DEC (R171): BAD_LENGTH wins over BAD_CODE (60_exceptions.md R220). -/
def execR50Dec (s : State) : Host.Outcome State Fault Refusal :=
  s.transact Items.asW16s (onScalar r50Decode)

end Sys2Proof.Machine
end

