-- ==== Sys2Proof/Machine/TextualBinary.lean ====
section
/-! DEFINITION. TBC, the textual binary codec (43_textual_binary.md): strings of '0' and '1', bit vectors, packed bytes.
No bit order is chosen here (R196): S2V and V2S go index to index, S2P and P2S read a binary numeral. -/

namespace Sys2Proof.Machine

/-- `stringToBits` (R191). -/
def stringToBits (cs : List CharCode) : Result :=
  match cs.mapM (bitOfChar Config.textLenient) with
  | some bs => .complete (.bits bs)
  | none => .raise .badSymbol

/-- The bytes of a numeral given by its bits, bit 0 first: byte k holds numeral bits 8k to 8k+7, and the missing upper
bits of the last byte are 0 (R193). -/
def packBits : Nat → List Bit → List Byte
  | 0, _ => []
  | n + 1, bs => BitVec.ofNat 8 (natOfBitsLsb (bs.take 8)) :: packBits n (bs.drop 8)

/-- `stringToPackedBytes` (R193): the spaces are stripped first; numeral bit k is the k-th character from the right;
ceil(L/8) bytes. -/
def stringToPackedBytes (cs : List CharCode) : Result :=
  match (cs.filter (· ≠ 0x20)).mapM (bitOfChar Config.textLenient) with
  | some bs => .complete (.bytes (packBits ((bs.length + 7) / 8) bs.reverse))
  | none => .raise .badSymbol

/-- S2V (R191). -/
def execS2v (s : State) : Host.Outcome State Fault Refusal :=
  s.transact Items.asChars stringToBits

/-- S2P (R193). -/
def execS2p (s : State) : Host.Outcome State Fault Refusal :=
  s.transact Items.asChars stringToPackedBytes

/-- V2S (R192): one character per bit, in vector order. -/
def execV2s (s : State) : Host.Outcome State Fault Refusal :=
  s.transact Items.asBits fun bs => .complete (.chars (bs.map charOfBit))

/-- P2S (R194): bytes from the highest index down, each as eight characters, most significant bit first. -/
def execP2s (s : State) : Host.Outcome State Fault Refusal :=
  s.transact Items.asBytes fun bs =>
    .complete (.chars (bs.reverse.flatMap fun b => (bitsOf .msbFirst 8 b).map charOfBit))

end Sys2Proof.Machine
end

