-- ==== Sys2Proof/Machine/Dispatch.lean ====
section
/-! DEFINITION. The dispatch: one arm per operation of 30_encoding.md R76, in the order of spec/opcode_table.json. -/

namespace Sys2Proof.Machine

def exec (i : Instr) (s : State) : Host.Outcome State Fault Refusal :=
  match i with
  | .encI16 => Sys2Proof.Machine.execEncI16 s
  | .encI32 => Sys2Proof.Machine.execEncI32 s
  | .encI64 => Sys2Proof.Machine.execEncI64 s
  | .encF32 => Sys2Proof.Machine.execEncF32 s
  | .encF64 => Sys2Proof.Machine.execEncF64 s
  | .decI16 => Sys2Proof.Machine.execDecI16 s
  | .decI32 => Sys2Proof.Machine.execDecI32 s
  | .decI64 => Sys2Proof.Machine.execDecI64 s
  | .decF32 => Sys2Proof.Machine.execDecF32 s
  | .decF64 => Sys2Proof.Machine.execDecF64 s
  | .b2vB ord n => Sys2Proof.Machine.execB2vB ord n s
  | .b2vW ord n => Sys2Proof.Machine.execB2vW ord n s
  | .v2bB ord => Sys2Proof.Machine.execV2bB ord s
  | .v2bW ord => Sys2Proof.Machine.execV2bW ord s
  | .midEnc => Sys2Proof.Machine.execMidEnc s
  | .vaxdEnc => Sys2Proof.Machine.execVaxdEnc s
  | .r50Enc => Sys2Proof.Machine.execR50Enc s
  | .midDec off => Sys2Proof.Machine.execMidDec off s
  | .vaxdDec off => Sys2Proof.Machine.execVaxdDec off s
  | .r50Dec => Sys2Proof.Machine.execR50Dec s
  | .s2v => Sys2Proof.Machine.execS2v s
  | .s2p => Sys2Proof.Machine.execS2p s
  | .v2s => Sys2Proof.Machine.execV2s s
  | .p2s => Sys2Proof.Machine.execP2s s

end Sys2Proof.Machine
end

