-- ==== Sys2Proof/Machine/Step.lean ====
section
/-! DEFINITION. The step: one transaction (00_scope.md R10). -/

namespace Sys2Proof.Machine

/-- Serves the next outstanding command. An illegal command word gives ILLEGAL_COMMAND, decided from `CW` alone, before
`IN_PRESENT` and `IN` are looked at (60_exceptions.md R212, R220); a legal one runs its operation. With no command
outstanding the unit is idle and stays so (70_reset_and_hazards.md R240; log entry 2). -/
def step (s : State) : Host.Outcome State Fault Refusal :=
  match s.pending with
  | [] => .next s
  | req :: _ =>
    match decode req.cw with
    | .ok i => exec i s
    | .error _ => s.respond (.raise .illegalCommand)

/-- The command whose word has the bits `w`, with absent input, stands before the outstanding ones: a host hands it to the
unit as the next command (20_memory.md R54; log entry 4). Every word with absent input is a command
(`Op.ofPorts_absent`). -/
def State.withFetchWord (s : State) (nbits w : Nat) : State :=
  match Op.ofPorts (BitVec.ofNat 64 (w % 2 ^ nbits)) none with
  | some op => { s with pending := { requester := 0, op := op } :: s.pending }
  | none => s

end Sys2Proof.Machine
end

