-- ==== Sys2Proof/Machine/HostProgram.lean ====
section
/-! DEFINITION. The host's side of the interface: programs over named buffers (30_encoding.md R92). The PCU has no part in
it: it sees independent transactions, so this layer only calls `step`. -/

namespace Sys2Proof.Machine

/-- The name of a host buffer. -/
abbrev Name := List Char

/-- Where a line takes its input from (R82): a buffer, a literal, or `absent` (`IN_PRESENT` = 0). -/
inductive Source where
  | name (n : Name)
  | literal (xs : Items)
  | absent
  deriving DecidableEq, Repr

/-- One line of a program (R82): the operation with its parameters, the source and the destination buffer. -/
structure Line where
  instr : Instr
  src : Source
  dst : Name
  deriving DecidableEq, Repr

/-- The host environment (R92): buffer names to typed sequences. -/
abbrev Env := List (Name × Items)

/-- `env[dst] <- OUT` (R92). -/
def Env.set (env : Env) (dst : Name) (out : Items) : Env :=
  (dst, out) :: env.filter fun entry => entry.1 ≠ dst

/-- How a program ends (R92). -/
inductive ProgramResult where
  /-- every line answered OK; the last environment -/
  | completed (env : Env)
  /-- the line with this number, counted from 1, answered another status; the environment as it was -/
  | stopped (line : Nat) (status : Status) (env : Env)
  /-- the program is ill-formed: refused before it runs -/
  | illFormed
  /-- the machine gave a line no meaning (only with `MAXLEN` set, D28) -/
  | refused (line : Nat)
  deriving DecidableEq, Repr

/-- The response of one command handed to an idle unit: the total function of 00_scope.md R11. None for ports that cannot
stand so (10_state.md R32), or when the machine gives the command no meaning. `IN` is ignored when `IN_PRESENT` = 0 (R26). -/
def transaction (cw : CommandWord) (inPresent : Bool) (input : Items) : Option Result :=
  match Op.ofPorts cw (if inPresent then some input else none) with
  | none => none
  | some op =>
    match step (State.reset.submit { requester := 0, op := op }) with
    | .next s => (s.delivered.head?).map Response.result
    | .fault _ => none
    | .refused _ => none

/-- `IN_PRESENT` and `IN` of a source (R92); none when the buffer is not in the environment. -/
def Source.ports (env : Env) : Source → Option (Bool × Items)
  | .name n => (env.lookup n).map fun xs => (true, xs)
  | .literal xs => some (true, xs)
  | .absent => some (false, .empty)

/-- The buffers a program may read and their item types (none: the `[]` that has every type). -/
abbrev TypeEnv := List (Name × Option ItemType)

/-- The source has the operation's item type (R92). -/
def Source.typedFor (types : TypeEnv) (t : ItemType) : Source → Bool
  | .name n =>
    match types.lookup n with
    | some (some t') => decide (t' = t)
    | some none => true
    | none => false
  | .literal xs => xs.hasType t
  | .absent => true

/-- The program is well formed (R92, R83): the fields of every line fit, every source is bound when its line runs and has
the operation's item type. -/
def programOk : TypeEnv → List Line → Bool
  | _, [] => true
  | types, l :: ls =>
    l.instr.wellFormed && l.src.typedFor types (inputType l.instr)
      && programOk ((l.dst, some (outputType l.instr)) :: types.filter fun entry => entry.1 ≠ l.dst) ls

/-- Runs the lines in order from line number `k` on; the first status other than OK stops the program (R92). -/
def runLines : Nat → List Line → Env → ProgramResult
  | _, [], env => .completed env
  | k, l :: ls, env =>
    match l.src.ports env with
    | none => .illFormed
    | some (inPresent, input) =>
      match transaction (encode l.instr) inPresent input with
      | none => .refused k
      | some r => if r.status = .ok then runLines (k + 1) ls (env.set l.dst r.out) else .stopped k r.status env

/-- Runs a program (R92): an ill-formed one is refused before it runs. -/
def runProgram (env : Env) (ls : List Line) : ProgramResult :=
  if programOk (env.map fun entry => (entry.1, entry.2.itemType)) ls then runLines 1 ls env else .illFormed

end Sys2Proof.Machine
end

