-- ==== Sys2Proof/Machine/Assembler.lean ====
section
/-! DEFINITION. The host's line syntax (30_encoding.md R82) and its assembler (R83). What R82 leaves to the reader (white
space, the letters of a name) is log entry 14. -/

namespace Sys2Proof.Machine

/-- The tokens of a line (R82). -/
inductive Token where
  | word (cs : List Char)
  | string (cs : List Char)
  | comma
  | openList
  | closeList
  | equals
  | arrow
  deriving DecidableEq, Repr

/-- What the lexer is inside of; a word or a string carries its letters, the latest first. -/
inductive LexMode where
  | between
  | inWord (seen : List Char)
  | inString (seen : List Char)
  | afterDash
  | inComment
  deriving DecidableEq, Repr

/-- The letters of mnemonics, names and numbers. -/
def isWordChar (c : Char) : Bool :=
  c.isAlphanum || c == '.' || c == '_'

/-- A character between tokens: the token it makes and what the lexer is inside of afterwards. -/
def lexGap (c : Char) : Option (List Token × LexMode) :=
  if isWordChar c then some ([], .inWord [c])
  else if c == ' ' || c == '\t' then some ([], .between)
  else if c == ',' then some ([.comma], .between)
  else if c == '[' then some ([.openList], .between)
  else if c == ']' then some ([.closeList], .between)
  else if c == '=' then some ([.equals], .between)
  else if c == '"' then some ([], .inString [])
  else if c == '-' then some ([], .afterDash)
  else if c == ';' then some ([], .inComment)
  else none

/-- One character: the tokens it completes and what the lexer is inside of afterwards. -/
def lexChar (mode : LexMode) (c : Char) : Option (List Token × LexMode) :=
  match mode with
  | .between => lexGap c
  | .inWord seen =>
    if isWordChar c then some ([], .inWord (c :: seen))
    else (lexGap c).map fun r => (.word seen.reverse :: r.1, r.2)
  | .inString seen =>
    if c == '"' then some ([.string seen.reverse], .between)
    else if c.toNat < 128 then some ([], .inString (c :: seen))
    else none
  | .afterDash => if c == '>' then some ([.arrow], .between) else none
  | .inComment => some ([], .inComment)

/-- Cuts a line into tokens; text after `;` is a comment (R82). None for a line that is not in the syntax. -/
def lex : LexMode → List Char → Option (List Token)
  | .between, [] => some []
  | .inWord seen, [] => some [.word seen.reverse]
  | .inString _, [] => none
  | .afterDash, [] => none
  | .inComment, [] => some []
  | mode, c :: cs => (lexChar mode c).bind fun r => (lex r.2 cs).map (r.1 ++ ·)

/-- The value of a digit in a base up to 16. -/
def digitValue (base : Nat) (c : Char) : Option Nat :=
  let n := c.toNat
  let v :=
    if 0x30 ≤ n ∧ n ≤ 0x39 then n - 0x30
    else if 0x41 ≤ n ∧ n ≤ 0x46 then n - 0x41 + 10
    else if 0x61 ≤ n ∧ n ≤ 0x66 then n - 0x61 + 10
    else base
  if v < base then some v else none

/-- The number that digits after the value `acc` make. -/
def numberFrom (base : Nat) : Nat → List Char → Option Nat
  | acc, [] => some acc
  | acc, c :: cs => (digitValue base c).bind fun d => numberFrom base (acc * base + d) cs

/-- `number := decimal | "0x" hexadecimal` (R82). -/
def parseNumber : List Char → Option Nat
  | [] => none
  | ['0', 'x'] => none
  | '0' :: 'x' :: cs => numberFrom 16 0 cs
  | cs => numberFrom 10 0 cs

/-- `ord := "msb" | "lsb"` (R82). -/
def parseOrd (cs : List Char) : Option BitOrder :=
  if cs = ['m', 's', 'b'] then some .msbFirst
  else if cs = ['l', 's', 'b'] then some .lsbFirst
  else none

/-- The parameters an operation takes (R82, `params`). -/
inductive Params where
  | plain (i : Instr)
  | ordN (i : BitOrder → Nat → Instr)
  | ord (i : BitOrder → Instr)
  | off (i : Nat → Instr)

/-- The mnemonics (30_encoding.md R76). -/
def mnemonics : List (String × Params) :=
  [("ENC.I16", .plain .encI16), ("ENC.I32", .plain .encI32), ("ENC.I64", .plain .encI64),
    ("ENC.F32", .plain .encF32), ("ENC.F64", .plain .encF64), ("DEC.I16", .plain .decI16),
    ("DEC.I32", .plain .decI32), ("DEC.I64", .plain .decI64), ("DEC.F32", .plain .decF32),
    ("DEC.F64", .plain .decF64), ("B2V.B", .ordN .b2vB), ("B2V.W", .ordN .b2vW),
    ("V2B.B", .ord .v2bB), ("V2B.W", .ord .v2bW), ("MID.ENC", .plain .midEnc),
    ("VAXD.ENC", .plain .vaxdEnc), ("R50.ENC", .plain .r50Enc), ("MID.DEC", .off .midDec),
    ("VAXD.DEC", .off .vaxdDec), ("R50.DEC", .plain .r50Dec), ("S2V", .plain .s2v),
    ("S2P", .plain .s2p), ("V2S", .plain .v2s), ("P2S", .plain .p2s)]

/-- The parameters before the source, and the tokens that are left (R82). R82 writes `"off="` as one terminal and does not say
whether white space may stand in it. DESIGN CHOICE, log entry 14: it may, `off` and `=` are two tokens. R82 writes `[ params ]`
for all operations and does not say whether the six that take parameters may leave them out (R83: a field is 0 "when absent").
DESIGN CHOICE, log entry 14: they may not. -/
def parseParams : Params → List Token → Option (Instr × List Token)
  | .plain i, ts => some (i, ts)
  | .ordN i, .word o :: .comma :: .word n :: .comma :: ts =>
    (parseOrd o).bind fun o => (parseNumber n).map fun n => (i o n, ts)
  | .ord i, .word o :: .comma :: ts => (parseOrd o).map fun o => (i o, ts)
  | .off i, .word w :: .equals :: .word n :: .comma :: ts =>
    if w = ['o', 'f', 'f'] then (parseNumber n).map fun n => (i n, ts) else none
  | _, _ => none

/-- The items of a list literal, and the tokens after it: `"[" item "," item … "]"` or `"[]"` (R82). R82 writes `"[]"` as one
terminal and does not say whether white space may stand in it. DESIGN CHOICE, log entry 14: it may, `[` and `]` are two
tokens. -/
def parseItems : List Token → Option (List Nat × List Token)
  | .word n :: .comma :: ts =>
    (parseNumber n).bind fun n => (parseItems ts).bind fun r => if r.1 = [] then none else some (n :: r.1, r.2)
  | .word n :: .closeList :: ts => (parseNumber n).map fun n => ([n], ts)
  | .closeList :: ts => some ([], ts)
  | _ => none

/-- The numbers of a literal as patterns of `w` bits; none when one does not fit. -/
def fitPatterns (w : Nat) (ns : List Nat) : Option (List (BitVec w)) :=
  if ns.all (· < 2 ^ w) then some (ns.map (BitVec.ofNat w)) else none

/-- A list literal at the operation's item type `T_in` (R82). -/
def literalItems (t : ItemType) (ns : List Nat) : Option Items :=
  match t with
  | .byte => (fitPatterns 8 ns).map .bytes
  | .w16 => (fitPatterns 16 ns).map .w16s
  | .w32 => (fitPatterns 32 ns).map .w32s
  | .w64 => (fitPatterns 64 ns).map .w64s
  | .bit => (fitPatterns 1 ns).map fun vs => .bits (vs.map (· == 1#1))
  | .char => (fitPatterns 8 ns).map .chars

/-- `name` of a source or a destination (R82, which does not say which words are names). DESIGN CHOICE, log entry 14: any word
but `absent` and the words that read as a number. -/
def parseName (cs : List Char) : Option Name :=
  if cs = ['a', 'b', 's', 'e', 'n', 't'] ∨ (parseNumber cs).isSome then none else some cs

/-- `src := name | literal | "absent"` (R82) and the tokens after it. A string is a `Seq(Char)`. -/
def parseSource (t : ItemType) : List Token → Option (Source × List Token)
  | .word w :: ts =>
    if w = ['a', 'b', 's', 'e', 'n', 't'] then some (.absent, ts)
    else (parseName w).map fun n => (.name n, ts)
  | .string cs :: ts =>
    if t = .char then some (.literal (.chars (cs.map fun c => BitVec.ofNat 8 c.toNat)), ts) else none
  | .openList :: ts =>
    (parseItems ts).bind fun r => (literalItems t r.1).map fun xs => (.literal xs, r.2)
  | _ => none

/-- `line := mnemonic [ params ] src "->" dst` with `dst := name` (R82; what a name is: `parseName`, log entry 14). -/
def parseTokens : List Token → Option Line
  | .word m :: ts =>
    (mnemonics.find? fun e => e.1.toList = m).bind fun e =>
      (parseParams e.2 ts).bind fun p =>
        (parseSource (inputType p.1) p.2).bind fun q =>
          match q.2 with
          | [.arrow, .word w] => (parseName w).map fun dst => { instr := p.1, src := q.1, dst := dst }
          | _ => none
  | _ => none

/-- Reads one line of text (R82). -/
def parseLine (text : List Char) : Option Line :=
  (lex .between text).bind parseTokens

/-- Assembles one line (R83): its command word. Fields that do not fit are rejected; an `n` merely outside the operation's
range is not. -/
def assemble (l : Line) : Option CommandWord :=
  if l.instr.wellFormed then some (encode l.instr) else none

end Sys2Proof.Machine
end

