-- ==== Sys2Proof/Safety.lean ====
section
/-! DEFINITION. The terms claims use: what a command supplies, which commands are well typed, which responses are legal,
and the tables of the spec that claims quote (30_encoding.md R76, R79; 60_exceptions.md R218). -/

namespace Sys2Proof.Machine

/-- The command supplies the items `xs` at the item type of `seq`: `IN` is present and holds them, or there are none and
`IN` is absent (or the `[]` without a type) (10_state.md R26). -/
def Request.Supplies {α : Type} (req : Request) (seq : List α → Items) (xs : List α) : Prop :=
  (req.inPresent = true ∧ req.input = seq xs) ∨ ((req.inPresent = false ∨ req.input = .empty) ∧ xs = [])

/-- `IN` of a legal command has the operation's item type, as every `IN` at the real port has (10_state.md R32). It holds of
every request, by the type of `Op`; claims say so. An illegal command's `IN` is not read (60_exceptions.md R212). -/
def Request.wellTyped (req : Request) : Bool :=
  match decode req.cw with
  | .ok i => !req.inPresent || req.input.hasType (inputType i)
  | .error _ => true

/-- Every outstanding command is well typed. -/
def State.wellTyped (s : State) : Bool :=
  s.pending.all Request.wellTyped

/-- `OUT` is the `[]` without an item type exactly when the status is not OK (10_state.md R26; 60_exceptions.md R214). That the
`[]` of a condition has no item type, and so differs from the typed `[]` of a completed command, is the model's choice (log
entry 6). -/
def Result.legal (r : Result) : Bool :=
  decide (r.status = .ok) == decide (r.out ≠ .empty)

/-- The invariant of the machine: what is outstanding is well typed and what was delivered is legal. -/
def State.Inv (s : State) : Prop :=
  s.wellTyped = true ∧ ∀ r ∈ s.delivered, r.result.legal = true

/-- One row of the opcode table: the operation code and the fields the operation reads (30_encoding.md R76). -/
structure OpRow where
  op : BitVec 8
  readsOrd : Bool
  readsN : Bool
  readsOff : Bool
  deriving DecidableEq, Repr

/-- The 24 rows of 30_encoding.md R76. -/
def opRows : List OpRow :=
  ([0x00, 0x01, 0x02, 0x03, 0x04, 0x08, 0x09, 0x0A, 0x0B, 0x0C, 0x20, 0x21, 0x22, 0x2A, 0x30, 0x31, 0x38, 0x39].map
      fun op => { op := op, readsOrd := false, readsN := false, readsOff := false })
    ++ ([0x10, 0x11].map fun op => { op := op, readsOrd := true, readsN := true, readsOff := false })
    ++ ([0x18, 0x19].map fun op => { op := op, readsOrd := true, readsN := false, readsOff := false })
    ++ ([0x28, 0x29].map fun op => { op := op, readsOrd := false, readsN := false, readsOff := true })

/-- The word is legal by the row: none of the cases (a), (b), (c) of R79 holds. -/
def OpRow.admits (row : OpRow) (cw : CommandWord) : Bool :=
  decide (cw.extractLsb' 56 8 = row.op)
    && decide (cw.extractLsb' 54 1 = 0#1) && decide (cw.extractLsb' 32 16 = 0#16)
    && (row.readsOrd || decide (cw.extractLsb' 55 1 = 0#1))
    && (row.readsN || decide (cw.extractLsb' 48 6 = 0#6))
    && (row.readsOff || decide (cw.extractLsb' 0 32 = 0#32))

/-- `match` and `mask` of the 24 rows of spec/opcode_table.json. -/
def matchMasks : List (CommandWord × CommandWord) :=
  ([0x00, 0x01, 0x02, 0x03, 0x04, 0x08, 0x09, 0x0A, 0x0B, 0x0C, 0x20, 0x21, 0x22, 0x2A, 0x30, 0x31, 0x38, 0x39].map
      fun op : CommandWord => (op <<< 56, 0xFFFFFFFFFFFFFFFF))
    ++ [(0x1000000000000000, 0xFF40FFFFFFFFFFFF), (0x1100000000000000, 0xFF40FFFFFFFFFFFF),
      (0x1800000000000000, 0xFF7FFFFFFFFFFFFF), (0x1900000000000000, 0xFF7FFFFFFFFFFFFF),
      (0x2800000000000000, 0xFFFFFFFF00000000), (0x2900000000000000, 0xFFFFFFFF00000000)]

/-- The conditions an operation can raise: the crosses of 60_exceptions.md R218. -/
def conditionsOf : Instr → List Status
  | .encI16 => []
  | .encI32 => []
  | .encI64 => []
  | .encF32 => []
  | .encF64 => []
  | .decI16 => []
  | .decI32 => []
  | .decI64 => []
  | .decF32 => []
  | .decF64 => []
  | .b2vB _ _ => [.badLength]
  | .b2vW _ _ => [.badLength]
  | .v2bB _ => [.badLength]
  | .v2bW _ => [.badLength]
  | .midEnc => [.badLength]
  | .vaxdEnc => [.badLength]
  | .r50Enc => [.badSymbol]
  | .midDec _ => [.outOfRange]
  | .vaxdDec _ => [.outOfRange]
  | .r50Dec => [.badLength, .badCode]
  | .s2v => [.badSymbol]
  | .s2p => [.badSymbol]
  | .v2s => []
  | .p2s => []

/-- "OUT length when OK" of 10_state.md R26, from the operand. -/
def outputLength : Instr → Items → Nat
  | .encI16, x => 2 * x.length
  | .encI32, x => 4 * x.length
  | .encI64, x => 8 * x.length
  | .encF32, x => 4 * x.length
  | .encF64, x => 8 * x.length
  | .decI16, x => x.length / 2
  | .decI32, x => x.length / 4
  | .decI64, x => x.length / 8
  | .decF32, x => x.length / 4
  | .decF64, x => x.length / 8
  | .b2vB _ n, _ => n
  | .b2vW _ n, _ => n
  | .v2bB _, _ => 1
  | .v2bW _, _ => 1
  | .midEnc, _ => 4
  | .vaxdEnc, _ => 8
  | .r50Enc, _ => 1
  | .midDec _, _ => 1
  | .vaxdDec _, _ => 1
  | .r50Dec, _ => 3
  | .s2v, x => x.length
  | .s2p, .chars cs => ((cs.filter (· ≠ 0x20)).length + 7) / 8
  | .s2p, _ => 0
  | .v2s, x => x.length
  | .p2s, x => 8 * x.length

/-- The answer of an operation to an absent `IN` (60_exceptions.md R217, its last but one point). -/
def absentResult : Instr → Result
  | .encI16 => .complete (.bytes [])
  | .encI32 => .complete (.bytes [])
  | .encI64 => .complete (.bytes [])
  | .encF32 => .complete (.bytes [])
  | .encF64 => .complete (.bytes [])
  | .decI16 => .complete (.w16s [])
  | .decI32 => .complete (.w32s [])
  | .decI64 => .complete (.w64s [])
  | .decF32 => .complete (.w32s [])
  | .decF64 => .complete (.w64s [])
  | .b2vB _ _ => .raise .badLength
  | .b2vW _ _ => .raise .badLength
  | .v2bB _ => .raise .badLength
  | .v2bW _ => .raise .badLength
  | .midEnc => .raise .badLength
  | .vaxdEnc => .raise .badLength
  | .r50Enc => .complete (.w16s [0])
  | .midDec _ => .raise .outOfRange
  | .vaxdDec _ => .raise .outOfRange
  | .r50Dec => .raise .badLength
  | .s2v => .complete (.bits [])
  | .s2p => .complete (.bytes [])
  | .v2s => .complete (.chars [])
  | .p2s => .complete (.chars [])

/-- The character `c` has the Radix-50 value `v`: the lines of 42_legacy_format.md R174. -/
def R50Symbol (c : CharCode) (v : Nat) : Prop :=
  (c.toNat = 0x20 ∧ v = 0) ∨ (0x41 ≤ c.toNat ∧ c.toNat ≤ 0x5A ∧ v = c.toNat - 0x40)
    ∨ (0x61 ≤ c.toNat ∧ c.toNat ≤ 0x7A ∧ v = c.toNat - 0x60) ∨ (c.toNat = 0x24 ∧ v = 27)
    ∨ (c.toNat = 0x2E ∧ v = 28) ∨ (0x30 ≤ c.toNat ∧ c.toNat ≤ 0x39 ∧ v = c.toNat - 0x30 + 30)

/-- The character slot `i` of R50.ENC has the value `v`: the character's, or 0 where there is no character (R173). -/
def R50Slot (cs : List CharCode) (i v : Nat) : Prop :=
  (∃ c, cs[i]? = some c ∧ R50Symbol c v) ∨ (cs[i]? = none ∧ v = 0)

/-- The character a symbol value decodes to: the table of 42_legacy_format.md R170, column "code out". -/
def r50CharOut (q : Nat) : CharCode :=
  if q = 0 ∨ q = 29 then 0x20
  else if q ≤ 26 then BitVec.ofNat 8 (0x40 + q)
  else if q = 27 then 0x24
  else if q = 28 then 0x2E
  else BitVec.ofNat 8 (0x30 + (q - 30))

/-- The character in upper case. -/
def upperCase (c : CharCode) : CharCode :=
  if 0x61 ≤ c.toNat ∧ c.toNat ≤ 0x7A then c - 0x20 else c

/-- A symbol value after decoding and encoding again: 29 ("unused") comes back as 0 (42_legacy_format.md R175). -/
def withoutUnused (q : Nat) : Nat :=
  if q = 29 then 0 else q

/-- The bytes `B0 .. B7` of a VAX pattern V (42_legacy_format.md R161). -/
def vaxLayout (V : W64) : List Byte :=
  [V.extractLsb' 48 8, V.extractLsb' 56 8, V.extractLsb' 32 8, V.extractLsb' 40 8,
    V.extractLsb' 16 8, V.extractLsb' 24 8, V.extractLsb' 0 8, V.extractLsb' 8 8]

/-- A legal command with its input present answers OK with this output. -/
def Gives (cw : CommandWord) (input out : Items) : Prop :=
  transaction cw true input = some (.complete out)

end Sys2Proof.Machine
end

