-- ==== Sys2Proof/Certificates/Slice0/Obligations.lean ====
section
/-! DEFINITION. The statements about the model, in the order of OBLIGATIONS.json. -/

open Sys2Proof Sys2Proof.Machine

/-! ## Command words -/

/-- Words written out from 30_encoding.md R70, R76, R83 and from 95_test_vectors.md 2.7 decode to the commands the spec reads
in them, and illegal ones are rejected. -/
def Obligations.SpecWordsDecode : Prop :=
  decode 0x118C000000000000 = .ok (.b2vW .lsbFirst 12) ∧ decode 0x2800000000000005 = .ok (.midDec 5) ∧
    decode 0x1008000000000000 = .ok (.b2vB .msbFirst 8) ∧ decode 0x2900000000000002 = .ok (.vaxdDec 2) ∧
    decode 0x28000000FFFFFFFF = .ok (.midDec 0xFFFFFFFF) ∧ decode 0x1880000000000000 = .ok (.v2bB .lsbFirst) ∧
    decode 0x1121000000000000 = .ok (.b2vW .msbFirst 33) ∧ decode 0x0A00000000000000 = .ok .decI64 ∧
    decode 0x3100000000000000 = .ok .s2p ∧ decode 0x0500000000000000 = .error .unknownOp ∧
    decode 0x0040000000000000 = .error .reservedField ∧ decode 0x0000000100000000 = .error .reservedField ∧
    decode 0x0000000000000001 = .error .unusedField ∧ decode 0x1808000000000000 = .error .unusedField

/-- Decoding the encoding of a well-formed instruction gives it back, whatever its operands. -/
def Obligations.DecodeEncode : Prop :=
  ∀ i : Instr, i.wellFormed = true → decode (encode i) = .ok i

/-- A legal word is the one encoding of a well-formed instruction: no bit of it is dropped. -/
def Obligations.EncodeDecode : Prop :=
  ∀ (cw : CommandWord) (i : Instr), decode cw = .ok i → i.wellFormed = true ∧ encode i = cw

/-- Legal and illegal command words (30_encoding.md R79): by its cases (a), (b), (c) (`OpRow.admits`), and by match and mask
of the opcode table. An illegal one is answered ILLEGAL_COMMAND with `OUT` = [], whatever `IN_PRESENT` and `IN` are. -/
def Obligations.IllegalCommandWords : Prop :=
  (∀ cw : CommandWord, (∃ i, decode cw = .ok i) ↔ ∃ row ∈ opRows, row.admits cw = true) ∧
    (∀ cw : CommandWord, (∃ i, decode cw = .ok i) ↔ ∃ row ∈ matchMasks, cw &&& row.2 = row.1) ∧
    ∀ (s : State) (req : Request) (rest : List Request), s.pending = req :: rest →
      (¬ ∃ row ∈ opRows, row.admits req.cw = true) → step s = .next (s.answer req rest (.raise .illegalCommand))

/-- A step serves the next outstanding command by the instruction its word decodes to. -/
def Obligations.StepRunsDecoded : Prop :=
  ∀ (s : State) (req : Request) (rest : List Request) (i : Instr),
    s.pending = req :: rest → decode req.cw = .ok i → step s = exec i s

/-- A command word placed by `withFetchWord` is the one the next step runs. -/
def Obligations.FetchedWordRuns : Prop :=
  ∀ (s : State) (i : Instr), i.wellFormed = true →
    step (s.withFetchWord 64 (encode i).toNat) = exec i (s.withFetchWord 64 (encode i).toNat)

/-! ## The machine as a whole -/

/-- After reset nothing is outstanding and nothing was delivered, and a step leaves the unit idle (that an idle step changes
nothing is the model's choice, log entry 2). -/
def Obligations.ResetIsIdle : Prop :=
  State.reset.pending = [] ∧ State.reset.delivered = [] ∧ step State.reset = .next State.reset

/-- The invariant holds after reset. -/
def Obligations.ResetMeetsInv : Prop :=
  State.reset.Inv

/-- Every step keeps the invariant: outstanding commands are well typed (as every command is, by its type), and every delivered
response has the `[]` without an item type as `OUT` exactly when its status is not OK. A response with status OK may be empty, but
then its `[]` has the item type of its operation: that the `[]` of a condition has none is the model's choice, log entry 6. -/
def Obligations.StepKeepsInv : Prop :=
  ∀ s t : State, s.Inv → step s = .next t → t.Inv

/-- No command can stop the unit: a step always answers, and takes exactly one command off the outstanding ones when there is
one. That a step without a command leaves the state as it is, is the model's choice (log entry 2), and so is that no length of
`IN` or `OUT` is too long (log entry 7). -/
def Obligations.EveryCommandCompletes : Prop :=
  ∀ s : State,
    (s.pending = [] ∧ step s = .next s) ∨
      ∃ req rest r, s.pending = req :: rest ∧ step s = .next (s.answer req rest r)

/-- The response is a function of `CW`, `IN_PRESENT` and `IN` alone (and of `IN` only when present): two states that agree on
these for their next command answer it alike, whatever was delivered before, whatever is outstanding besides, and whichever
host asks. -/
def Obligations.ResponseDependsOnCommandAlone : Prop :=
  ∀ (s₁ s₂ t₁ : State) (q₁ q₂ : Request) (rest₁ rest₂ : List Request),
    s₁.pending = q₁ :: rest₁ → s₂.pending = q₂ :: rest₂ → q₁.cw = q₂.cw → q₁.inPresent = q₂.inPresent →
    (q₁.inPresent = true → q₁.input = q₂.input) → step s₁ = .next t₁ →
    ∃ r, t₁ = s₁.answer q₁ rest₁ r ∧ step s₂ = .next (s₂.answer q₂ rest₂ r)

/-- The transaction function of 00_scope.md R11 and the step agree in every state. -/
def Obligations.TransactionIsTheStep : Prop :=
  ∀ (s : State) (req : Request) (rest : List Request) (r : Result), s.pending = req :: rest →
    (transaction req.cw req.inPresent req.input = some r ↔ step s = .next (s.answer req rest r))

/-- From any state the unit answers all outstanding commands in as many steps as there are, in their order, each by its own
transaction and to its own host. The spec promises this order per host only: that one list serves all hosts in its order is the
model's choice, log entry 3. -/
def Obligations.OutstandingAnsweredInOrder : Prop :=
  ∀ s : State,
    ∃ rs : List Response,
      Sys2Proof.core.run s.pending.length s = .next { pending := [], delivered := s.delivered ++ rs } ∧
        List.Forall₂ (fun (q : Request) (a : Response) =>
          a.requester = q.requester ∧ transaction q.cw q.inPresent q.input = some a.result) s.pending rs

/-- Interleaving is invisible: two states with the same outstanding commands of host `k`, in the same order among themselves,
give host `k` the same responses in the same order, however the other hosts' commands stand between them. -/
def Obligations.InterleavingIsInvisible : Prop :=
  ∀ (s₁ s₂ : State) (k : Nat),
    s₁.pending.filter (fun q => q.requester = k) = s₂.pending.filter (fun q => q.requester = k) →
    s₁.delivered.filter (fun a => a.requester = k) = s₂.delivered.filter (fun a => a.requester = k) →
    ∃ t₁ t₂ : State, Sys2Proof.core.run s₁.pending.length s₁ = .next t₁ ∧
      Sys2Proof.core.run s₂.pending.length s₂ = .next t₂ ∧
      t₁.delivered.filter (fun a => a.requester = k) = t₂.delivered.filter (fun a => a.requester = k)

/-- Which conditions each operation can raise: exactly the crosses of 60_exceptions.md R218. An operation raises no other, and
it does raise each of them on some outstanding command: on one whose word decodes to it, when it has a word (that `exec` is
defined beyond the instructions that have one is log entry 11). -/
def Obligations.ConditionMatrix : Prop :=
  (∀ (i : Instr) (s t : State), exec i s = .next t →
      ∃ req rest r, s.pending = req :: rest ∧ t = s.answer req rest r ∧
        (r.status = .ok ∨ r.status ∈ conditionsOf i)) ∧
    ∀ (i : Instr) (st : Status), st ∈ conditionsOf i →
      ∃ (s : State) (req : Request), s.pending = [req] ∧ (i.wellFormed = true → decode req.cw = .ok i) ∧
        exec i s = .next (s.answer req [] (.raise st))

/-- Item type and length of `OUT` for every operation: the table of 10_state.md R26. -/
def Obligations.OutputTypeAndLength : Prop :=
  ∀ (i : Instr) (s t : State), exec i s = .next t →
    ∃ req rest r, s.pending = req :: rest ∧ t = s.answer req rest r ∧
      (r.status = .ok → r.out.itemType = some (outputType i) ∧ r.out.length = outputLength i req.operand) ∧
      (r.status ≠ .ok → r.out = .empty)

/-- Absent input, for every operation and whatever stands at `IN`: the operation's answer to the empty sequence. -/
def Obligations.AbsentInputIsEmpty : Prop :=
  (∀ (i : Instr) (s : State) (req : Request) (rest : List Request), s.pending = req :: rest → req.inPresent = false →
      exec i s = .next (s.answer req rest (absentResult i))) ∧
    ∀ (cw : CommandWord) (i : Instr) (x : Items), decode cw = .ok i → transaction cw false x = some (absentResult i)

/-- The status codes, and no two statuses share one. -/
def Obligations.StatusCodes : Prop :=
  Status.code .ok = 0 ∧ Status.code .outOfRange = 1 ∧ Status.code .illegalCommand = 2 ∧ Status.code .badLength = 3 ∧
    Status.code .badSymbol = 4 ∧ Status.code .badCode = 5 ∧ ∀ a b : Status, a.code = b.code → a = b

/-- The model's own stops (log entry 5), of `exec` alone and of no step: an operation asked for on a command whose input has
another item type is refused, and without a command there is no transaction. -/
def Obligations.IllTypedOperandRefused : Prop :=
  (∀ (i : Instr) (s : State) (req : Request) (rest : List Request), s.pending = req :: rest →
      req.inPresent = true → req.input.hasType (inputType i) = false → exec i s = .refused .illTypedOperand) ∧
    ∀ (i : Instr) (s : State), s.pending = [] → exec i s = .fault .noCommand

/-- Reset abandons what is in flight and takes no response back, and a command after it is answered as by a fresh unit. -/
def Obligations.ResetAbandonsInFlight : Prop :=
  ∀ (s : State) (req : Request) (r : Result), s.applyReset.pending = [] ∧ s.applyReset.delivered = s.delivered ∧
    (step (State.reset.submit req) = .next (State.reset.answer req [] r) ↔
      step (s.applyReset.submit req) = .next (s.answer req [] r))

/-- The ROM tables: the divisors, and entry `q` of the alphabet for every symbol value `q`. -/
def Obligations.RomTables : Prop :=
  divisors = [1600, 40, 1] ∧ alphabet.length = 40 ∧ ∀ q, q < 40 → alphabet[q]? = some (r50CharOut q)

/-! ## FWC -/

/-- ENC.I16 (40_fixed_width.md R105). -/
def Obligations.EncI16BigEndian : Prop :=
  decode 0x0000000000000000 = .ok .encI16 ∧
    ∀ (s : State) (req : Request) (rest : List Request) (ws : List W16),
      s.pending = req :: rest → req.Supplies .w16s ws →
      exec .encI16 s = .next (s.answer req rest (.complete (.bytes
        (ws.flatMap fun w => [w.extractLsb' 8 8, w.extractLsb' 0 8]))))

/-- ENC.I32 (R106). -/
def Obligations.EncI32BigEndian : Prop :=
  decode 0x0100000000000000 = .ok .encI32 ∧
    ∀ (s : State) (req : Request) (rest : List Request) (ws : List W32),
      s.pending = req :: rest → req.Supplies .w32s ws →
      exec .encI32 s = .next (s.answer req rest (.complete (.bytes
        (ws.flatMap fun w => [w.extractLsb' 24 8, w.extractLsb' 16 8, w.extractLsb' 8 8, w.extractLsb' 0 8]))))

/-- ENC.I64 (R107). -/
def Obligations.EncI64BigEndian : Prop :=
  decode 0x0200000000000000 = .ok .encI64 ∧
    ∀ (s : State) (req : Request) (rest : List Request) (ws : List W64),
      s.pending = req :: rest → req.Supplies .w64s ws →
      exec .encI64 s = .next (s.answer req rest (.complete (.bytes
        (ws.flatMap fun w =>
          [w.extractLsb' 56 8, w.extractLsb' 48 8, w.extractLsb' 40 8, w.extractLsb' 32 8,
            w.extractLsb' 24 8, w.extractLsb' 16 8, w.extractLsb' 8 8, w.extractLsb' 0 8]))))

/-- ENC.F32 (R108): every binary32 pattern passes unchanged. -/
def Obligations.EncF32BigEndian : Prop :=
  decode 0x0300000000000000 = .ok .encF32 ∧
    ∀ (s : State) (req : Request) (rest : List Request) (ws : List W32),
      s.pending = req :: rest → req.Supplies .w32s ws →
      exec .encF32 s = .next (s.answer req rest (.complete (.bytes
        (ws.flatMap fun w => [w.extractLsb' 24 8, w.extractLsb' 16 8, w.extractLsb' 8 8, w.extractLsb' 0 8]))))

/-- ENC.F64 (R109): every binary64 pattern passes unchanged. -/
def Obligations.EncF64BigEndian : Prop :=
  decode 0x0400000000000000 = .ok .encF64 ∧
    ∀ (s : State) (req : Request) (rest : List Request) (ws : List W64),
      s.pending = req :: rest → req.Supplies .w64s ws →
      exec .encF64 s = .next (s.answer req rest (.complete (.bytes
        (ws.flatMap fun w =>
          [w.extractLsb' 56 8, w.extractLsb' 48 8, w.extractLsb' 40 8, w.extractLsb' 32 8,
            w.extractLsb' 24 8, w.extractLsb' 16 8, w.extractLsb' 8 8, w.extractLsb' 0 8]))))

/-- DEC.I16 (R110): floor(m/2) words, an odd last byte dropped. -/
def Obligations.DecI16BigEndian : Prop :=
  decode 0x0800000000000000 = .ok .decI16 ∧
    ∀ (s : State) (req : Request) (rest : List Request) (bs : List Byte),
      s.pending = req :: rest → req.Supplies .bytes bs →
      exec .decI16 s = .next (s.answer req rest (.complete (.w16s
        ((List.range (bs.length / 2)).map fun i => bs.getD (2 * i) 0 ++ bs.getD (2 * i + 1) 0))))

/-- DEC.I32 (R111). -/
def Obligations.DecI32BigEndian : Prop :=
  decode 0x0900000000000000 = .ok .decI32 ∧
    ∀ (s : State) (req : Request) (rest : List Request) (bs : List Byte),
      s.pending = req :: rest → req.Supplies .bytes bs →
      exec .decI32 s = .next (s.answer req rest (.complete (.w32s
        ((List.range (bs.length / 4)).map fun i =>
          bs.getD (4 * i) 0 ++ bs.getD (4 * i + 1) 0 ++ bs.getD (4 * i + 2) 0 ++ bs.getD (4 * i + 3) 0))))

/-- DEC.I64 (R112). -/
def Obligations.DecI64BigEndian : Prop :=
  decode 0x0A00000000000000 = .ok .decI64 ∧
    ∀ (s : State) (req : Request) (rest : List Request) (bs : List Byte),
      s.pending = req :: rest → req.Supplies .bytes bs →
      exec .decI64 s = .next (s.answer req rest (.complete (.w64s
        ((List.range (bs.length / 8)).map fun i =>
          bs.getD (8 * i) 0 ++ bs.getD (8 * i + 1) 0 ++ bs.getD (8 * i + 2) 0 ++ bs.getD (8 * i + 3) 0
            ++ bs.getD (8 * i + 4) 0 ++ bs.getD (8 * i + 5) 0 ++ bs.getD (8 * i + 6) 0 ++ bs.getD (8 * i + 7) 0))))

/-- DEC.F32 (R113): every four bytes give a pattern, NaNs too. -/
def Obligations.DecF32BigEndian : Prop :=
  decode 0x0B00000000000000 = .ok .decF32 ∧
    ∀ (s : State) (req : Request) (rest : List Request) (bs : List Byte),
      s.pending = req :: rest → req.Supplies .bytes bs →
      exec .decF32 s = .next (s.answer req rest (.complete (.w32s
        ((List.range (bs.length / 4)).map fun i =>
          bs.getD (4 * i) 0 ++ bs.getD (4 * i + 1) 0 ++ bs.getD (4 * i + 2) 0 ++ bs.getD (4 * i + 3) 0))))

/-- DEC.F64 (R114). -/
def Obligations.DecF64BigEndian : Prop :=
  decode 0x0C00000000000000 = .ok .decF64 ∧
    ∀ (s : State) (req : Request) (rest : List Request) (bs : List Byte),
      s.pending = req :: rest → req.Supplies .bytes bs →
      exec .decF64 s = .next (s.answer req rest (.complete (.w64s
        ((List.range (bs.length / 8)).map fun i =>
          bs.getD (8 * i) 0 ++ bs.getD (8 * i + 1) 0 ++ bs.getD (8 * i + 2) 0 ++ bs.getD (8 * i + 3) 0
            ++ bs.getD (8 * i + 4) 0 ++ bs.getD (8 * i + 5) 0 ++ bs.getD (8 * i + 6) 0 ++ bs.getD (8 * i + 7) 0))))

/-- Encoding then decoding gives the words back, for each of the five kinds, at every length; and decoding then encoding gives
the bytes back without the dropped tail (40_fixed_width.md section 4, the second half the spec's own inference). -/
def Obligations.FixedWidthRoundTrip : Prop :=
  (∀ ws : List W16, ∃ b, Gives 0x0000000000000000 (.w16s ws) b ∧ Gives 0x0800000000000000 b (.w16s ws)) ∧
    (∀ ws : List W32, ∃ b, Gives 0x0100000000000000 (.w32s ws) b ∧ Gives 0x0900000000000000 b (.w32s ws)) ∧
    (∀ ws : List W64, ∃ b, Gives 0x0200000000000000 (.w64s ws) b ∧ Gives 0x0A00000000000000 b (.w64s ws)) ∧
    (∀ ws : List W32, ∃ b, Gives 0x0300000000000000 (.w32s ws) b ∧ Gives 0x0B00000000000000 b (.w32s ws)) ∧
    (∀ ws : List W64, ∃ b, Gives 0x0400000000000000 (.w64s ws) b ∧ Gives 0x0C00000000000000 b (.w64s ws)) ∧
    ∀ bs : List Byte,
      (∃ w, Gives 0x0800000000000000 (.bytes bs) w ∧
        Gives 0x0000000000000000 w (.bytes (bs.take (bs.length / 2 * 2)))) ∧
      (∃ w, Gives 0x0900000000000000 (.bytes bs) w ∧
        Gives 0x0100000000000000 w (.bytes (bs.take (bs.length / 4 * 4)))) ∧
      (∃ w, Gives 0x0A00000000000000 (.bytes bs) w ∧
        Gives 0x0200000000000000 w (.bytes (bs.take (bs.length / 8 * 8)))) ∧
      (∃ w, Gives 0x0B00000000000000 (.bytes bs) w ∧
        Gives 0x0300000000000000 w (.bytes (bs.take (bs.length / 4 * 4)))) ∧
      ∃ w, Gives 0x0C00000000000000 (.bytes bs) w ∧
        Gives 0x0400000000000000 w (.bytes (bs.take (bs.length / 8 * 8)))

/-- Bytes written at one width and read at another are re-grouped in order (20_memory.md section 2, the spec's own
inference). -/
def Obligations.MixedWidthRegroups : Prop :=
  (∀ w : W32, ∃ b, Gives 0x0100000000000000 (.w32s [w]) b ∧
      Gives 0x0800000000000000 b (.w16s [w.extractLsb' 16 16, w.extractLsb' 0 16]) ∧
      Gives 0x0A00000000000000 b (.w64s [])) ∧
    (∀ x y : W16, ∃ b, Gives 0x0000000000000000 (.w16s [x, y]) b ∧ Gives 0x0900000000000000 b (.w32s [x ++ y])) ∧
    ∀ B0 B1 B2 B3 : Byte, Gives 0x0900000000000000 (.bytes [B0, B1, B2, B3]) (.w32s [B0 ++ B1 ++ B2 ++ B3]) ∧
      Gives 0x2800000000000000 (.bytes [B0, B1, B2, B3]) (.w32s [B1 ++ B0 ++ B3 ++ B2])

/-! ## BVC -/

/-- B2V.B (41_bit_vector.md R131): the encoding with every `ORD` and `N`; the bits; BAD_LENGTH. -/
def Obligations.B2vByteToBits : Prop :=
  (∀ (o : BitVec 1) (n : BitVec 6),
      decode (0x10#8 ++ o ++ 0#1 ++ n ++ 0#16 ++ 0#32) =
        .ok (.b2vB (if o = 0#1 then .msbFirst else .lsbFirst) n.toNat)) ∧
    ∀ (s : State) (req : Request) (rest : List Request) (bs : List Byte) (n : Nat),
      s.pending = req :: rest → req.Supplies .bytes bs →
      (∀ b, bs = [b] → 1 ≤ n → n ≤ 8 →
        exec (.b2vB .lsbFirst n) s = .next (s.answer req rest (.complete (.bits
            ((List.range n).map fun k => b.getLsbD k)))) ∧
          exec (.b2vB .msbFirst n) s = .next (s.answer req rest (.complete (.bits
            ((List.range n).map fun i => b.getLsbD (n - 1 - i)))))) ∧
        ((bs.length ≠ 1 ∨ n < 1 ∨ n > 8) → ∀ ord, exec (.b2vB ord n) s = .next (s.answer req rest (.raise .badLength)))

/-- B2V.W (R132). -/
def Obligations.B2vWordToBits : Prop :=
  (∀ (o : BitVec 1) (n : BitVec 6),
      decode (0x11#8 ++ o ++ 0#1 ++ n ++ 0#16 ++ 0#32) =
        .ok (.b2vW (if o = 0#1 then .msbFirst else .lsbFirst) n.toNat)) ∧
    ∀ (s : State) (req : Request) (rest : List Request) (ws : List W32) (n : Nat),
      s.pending = req :: rest → req.Supplies .w32s ws →
      (∀ w, ws = [w] → 1 ≤ n → n ≤ 32 →
        exec (.b2vW .lsbFirst n) s = .next (s.answer req rest (.complete (.bits
            ((List.range n).map fun k => w.getLsbD k)))) ∧
          exec (.b2vW .msbFirst n) s = .next (s.answer req rest (.complete (.bits
            ((List.range n).map fun i => w.getLsbD (n - 1 - i)))))) ∧
        ((ws.length ≠ 1 ∨ n < 1 ∨ n > 32) → ∀ ord, exec (.b2vW ord n) s = .next (s.answer req rest (.raise .badLength)))

/-- V2B.B (R133): the sum of the powers of two of the set bits, by R137; BAD_LENGTH. -/
def Obligations.V2bBitsToByte : Prop :=
  (∀ o : BitVec 1, decode (0x18#8 ++ o ++ 0#1 ++ 0#6 ++ 0#16 ++ 0#32) =
      .ok (.v2bB (if o = 0#1 then .msbFirst else .lsbFirst))) ∧
    ∀ (s : State) (req : Request) (rest : List Request) (v : List Bit),
      s.pending = req :: rest → req.Supplies .bits v →
      (1 ≤ v.length → v.length ≤ 8 →
        exec (.v2bB .lsbFirst) s = .next (s.answer req rest (.complete (.bytes [BitVec.ofNat 8
            ((List.range v.length).map fun i => if v.getD i false then 2 ^ i else 0).sum]))) ∧
          exec (.v2bB .msbFirst) s = .next (s.answer req rest (.complete (.bytes [BitVec.ofNat 8
            ((List.range v.length).map fun i => if v.getD i false then 2 ^ (v.length - 1 - i) else 0).sum])))) ∧
        ((v.length < 1 ∨ v.length > 8) → ∀ ord, exec (.v2bB ord) s = .next (s.answer req rest (.raise .badLength)))

/-- V2B.W (R134). -/
def Obligations.V2bBitsToWord : Prop :=
  (∀ o : BitVec 1, decode (0x19#8 ++ o ++ 0#1 ++ 0#6 ++ 0#16 ++ 0#32) =
      .ok (.v2bW (if o = 0#1 then .msbFirst else .lsbFirst))) ∧
    ∀ (s : State) (req : Request) (rest : List Request) (v : List Bit),
      s.pending = req :: rest → req.Supplies .bits v →
      (1 ≤ v.length → v.length ≤ 32 →
        exec (.v2bW .lsbFirst) s = .next (s.answer req rest (.complete (.w32s [BitVec.ofNat 32
            ((List.range v.length).map fun i => if v.getD i false then 2 ^ i else 0).sum]))) ∧
          exec (.v2bW .msbFirst) s = .next (s.answer req rest (.complete (.w32s [BitVec.ofNat 32
            ((List.range v.length).map fun i => if v.getD i false then 2 ^ (v.length - 1 - i) else 0).sum])))) ∧
        ((v.length < 1 ∨ v.length > 32) → ∀ ord, exec (.v2bW ord) s = .next (s.answer req rest (.raise .badLength)))

/-- The round trip of the bit-vector codec in both orders: the value modulo 2^n, so the value itself when it is representable
in n bits; with different orders, the n-bit reversal (41_bit_vector.md section 4; the last two the spec's own inference). -/
def Obligations.BitVectorRoundTrip : Prop :=
  (∀ (o : BitOrder) (n : Nat) (b : Byte), 1 ≤ n → n ≤ 8 →
      ∃ v, Gives (encode (.b2vB o n)) (.bytes [b]) v ∧
        Gives (encode (.v2bB o)) v (.bytes [BitVec.ofNat 8 (b.toNat % 2 ^ n)])) ∧
    (∀ (o : BitOrder) (n : Nat) (w : W32), 1 ≤ n → n ≤ 32 →
      ∃ v, Gives (encode (.b2vW o n)) (.w32s [w]) v ∧
        Gives (encode (.v2bW o)) v (.w32s [BitVec.ofNat 32 (w.toNat % 2 ^ n)])) ∧
    ∀ (o o' : BitOrder) (n : Nat) (b : Byte), o ≠ o' → 1 ≤ n → n ≤ 8 →
      ∃ v r, Gives (encode (.b2vB o n)) (.bytes [b]) v ∧ Gives (encode (.v2bB o')) v (.bytes [r]) ∧
        ∀ i, r.getLsbD i = (decide (i < n) && b.getLsbD (n - 1 - i))

/-! ## LFC: middle-endian -/

/-- MID.ENC (42_legacy_format.md R152). -/
def Obligations.MidEncBytes : Prop :=
  decode 0x2000000000000000 = .ok .midEnc ∧
    ∀ (s : State) (req : Request) (rest : List Request) (ws : List W32),
      s.pending = req :: rest → req.Supplies .w32s ws →
      (∀ v, ws = [v] → exec .midEnc s = .next (s.answer req rest (.complete (.bytes
          [v.extractLsb' 16 8, v.extractLsb' 24 8, v.extractLsb' 0 8, v.extractLsb' 8 8])))) ∧
        (ws.length ≠ 1 → exec .midEnc s = .next (s.answer req rest (.raise .badLength)))

/-- MID.DEC (R153): the four bytes at `OFF`; OUT_OF_RANGE when fewer are there, the sum taken in the integers. -/
def Obligations.MidDecWord : Prop :=
  (∀ off : BitVec 32, decode (0x28#8 ++ 0#24 ++ off) = .ok (.midDec off.toNat)) ∧
    ∀ (s : State) (req : Request) (rest : List Request) (bs : List Byte) (off : Nat),
      s.pending = req :: rest → req.Supplies .bytes bs →
      (off + 4 ≤ bs.length → exec (.midDec off) s = .next (s.answer req rest (.complete (.w32s
          [bs.getD (off + 1) 0 ++ bs.getD off 0 ++ bs.getD (off + 3) 0 ++ bs.getD (off + 2) 0])))) ∧
        (off + 4 > bs.length → exec (.midDec off) s = .next (s.answer req rest (.raise .outOfRange)))

/-- Middle-endian encode and decode are exact inverses (42_legacy_format.md section 1; the second direction the spec's own
inference). -/
def Obligations.MiddleEndianBijection : Prop :=
  (∀ v : W32, ∃ b, Gives 0x2000000000000000 (.w32s [v]) b ∧ Gives 0x2800000000000000 b (.w32s [v])) ∧
    ∀ B0 B1 B2 B3 : Byte, ∃ v, Gives 0x2800000000000000 (.bytes [B0, B1, B2, B3]) v ∧
      Gives 0x2000000000000000 v (.bytes [B0, B1, B2, B3])

/-! ## LFC: VAX double -/

/-- VAXD.ENC (R165) on the fields sign `S`, exponent `E`, fraction `F` of the binary64 pattern: saturation, flush to zero, and
the re-biased pattern, each in VAX byte order (`vaxLayout`, R161). -/
def Obligations.VaxEncPattern : Prop :=
  decode 0x2100000000000000 = .ok .vaxdEnc ∧
    ∀ (s : State) (req : Request) (rest : List Request) (xs : List W64),
      s.pending = req :: rest → req.Supplies .w64s xs →
      (∀ (S : BitVec 1) (E : BitVec 11) (F : BitVec 52), xs = [S ++ E ++ F] →
        exec .vaxdEnc s = .next (s.answer req rest (.complete (.bytes (vaxLayout
          (if E.toNat ≥ 1150 then S ++ BitVec.allOnes 63
            else if E.toNat < 894 ∨ (E.toNat = 894 ∧ S = 0#1) then 0#64
            else S ++ BitVec.ofNat 8 (E.toNat - 894) ++ F ++ 0#3)))))) ∧
        (xs.length ≠ 1 → exec .vaxdEnc s = .next (s.answer req rest (.raise .badLength)))

/-- VAXD.DEC (R163) on the eight bytes at `OFF`: the re-biased exponent, the fraction truncated by three bits with its lowest bit
forced to 1 when a discarded bit was set; OUT_OF_RANGE when fewer bytes are there. -/
def Obligations.VaxDecPattern : Prop :=
  (∀ off : BitVec 32, decode (0x29#8 ++ 0#24 ++ off) = .ok (.vaxdDec off.toNat)) ∧
    ∀ (s : State) (req : Request) (rest : List Request) (bs : List Byte) (off : Nat),
      s.pending = req :: rest → req.Supplies .bytes bs →
      (∀ (S : BitVec 1) (e : BitVec 8) (f : BitVec 55), off + 8 ≤ bs.length →
        bs.getD (off + 1) 0 ++ bs.getD off 0 ++ bs.getD (off + 3) 0 ++ bs.getD (off + 2) 0
          ++ bs.getD (off + 5) 0 ++ bs.getD (off + 4) 0 ++ bs.getD (off + 7) 0 ++ bs.getD (off + 6) 0 = S ++ e ++ f →
        exec (.vaxdDec off) s = .next (s.answer req rest (.complete (.w64s
          [S ++ (if e = 0#8 then 0#11 else BitVec.ofNat 11 (e.toNat + 894))
            ++ (f.extractLsb' 3 52 ||| (if f.extractLsb' 0 3 = 0#3 then 0#52 else 1#52))])))) ∧
        (off + 8 > bs.length → exec (.vaxdDec off) s = .next (s.answer req rest (.raise .outOfRange)))

/-- A VAX pattern with exponent 0 (42_legacy_format.md R164) decodes to exponent field 0 with its sign: to a zero of that sign
when its fraction is 0, to a subnormal otherwise. -/
def Obligations.VaxDecZeroExponent : Prop :=
  ∀ (S : BitVec 1) (f : BitVec 55), ∃ F : BitVec 52,
    Gives 0x2900000000000000 (.bytes (vaxLayout (S ++ 0#8 ++ f))) (.w64s [S ++ 0#11 ++ F]) ∧ (F = 0#52 ↔ f = 0#55)

/-- Saturation of VAXD.ENC (R166): every exponent from 1150 on, infinities and NaNs (2047) included, gives the maximum magnitude with
the sign of the input; the first saturating and the last exact positive pattern; what the saturated one decodes to. -/
def Obligations.VaxEncSaturates : Prop :=
  (∀ (E : BitVec 11) (F : BitVec 52), E.toNat ≥ 1150 →
      Gives 0x2100000000000000 (.w64s [0#1 ++ E ++ F]) (.bytes [0xFF, 0x7F, 0xFF, 0xFF, 0xFF, 0xFF, 0xFF, 0xFF]) ∧
        Gives 0x2100000000000000 (.w64s [1#1 ++ E ++ F]) (.bytes [0xFF, 0xFF, 0xFF, 0xFF, 0xFF, 0xFF, 0xFF, 0xFF])) ∧
    Gives 0x2100000000000000 (.w64s [0x47E0000000000000]) (.bytes [0xFF, 0x7F, 0xFF, 0xFF, 0xFF, 0xFF, 0xFF, 0xFF]) ∧
    Gives 0x2100000000000000 (.w64s [0x47DFFFFFFFFFFFFF]) (.bytes [0xFF, 0x7F, 0xFF, 0xFF, 0xFF, 0xFF, 0xF8, 0xFF]) ∧
    Gives 0x2900000000000000 (.bytes [0xFF, 0x7F, 0xFF, 0xFF, 0xFF, 0xFF, 0xFF, 0xFF]) (.w64s [0x47DFFFFFFFFFFFFF])

/-- Flush to zero of VAXD.ENC (R167), and the literal reserved-operand pattern when the re-biased exponent is 0 and the sign 1
(R168). -/
def Obligations.VaxEncUnderflow : Prop :=
  (∀ (S : BitVec 1) (E : BitVec 11) (F : BitVec 52), (E.toNat ≤ 893 ∨ (E.toNat = 894 ∧ S = 0#1)) →
      Gives 0x2100000000000000 (.w64s [S ++ E ++ F]) (.bytes [0, 0, 0, 0, 0, 0, 0, 0])) ∧
    ∀ F : BitVec 52,
      Gives 0x2100000000000000 (.w64s [1#1 ++ 894#11 ++ F]) (.bytes (vaxLayout (1#1 ++ 0#8 ++ F ++ 0#3)))

/-- The laws of the VAX conversions (42_legacy_format.md section 2; inferences of the spec from R163 and R165): exact inverses
for 895 ≤ E ≤ 1149; encode after decode clears the three low fraction bits and sets the fourth when one of them was set; decode
never gives exponent 2047, and 0 only from 0. -/
def Obligations.VaxRoundTrips : Prop :=
  (∀ (S : BitVec 1) (E : BitVec 11) (F : BitVec 52), 895 ≤ E.toNat → E.toNat ≤ 1149 →
      ∃ b, Gives 0x2100000000000000 (.w64s [S ++ E ++ F]) b ∧ Gives 0x2900000000000000 b (.w64s [S ++ E ++ F])) ∧
    (∀ (S : BitVec 1) (e : BitVec 8) (g : BitVec 52) (low : BitVec 3), 1 ≤ e.toNat →
      ∃ x, Gives 0x2900000000000000 (.bytes (vaxLayout (S ++ e ++ g ++ low))) x ∧
        Gives 0x2100000000000000 x
          (.bytes (vaxLayout (S ++ e ++ (g ||| (if low = 0#3 then 0#52 else 1#52)) ++ 0#3)))) ∧
    ∀ (S : BitVec 1) (e : BitVec 8) (f : BitVec 55), ∃ X : W64,
      Gives 0x2900000000000000 (.bytes (vaxLayout (S ++ e ++ f))) (.w64s [X]) ∧
        X.extractLsb' 52 11 ≠ 2047#11 ∧ (X.extractLsb' 52 11 = 0#11 ↔ e = 0#8)

/-! ## LFC: Radix-50 -/

/-- R50.ENC (R173): the three slot values in base 40; BAD_SYMBOL when one of the first three characters has none (R174). -/
def Obligations.R50EncCode : Prop :=
  decode 0x2200000000000000 = .ok .r50Enc ∧
    ∀ (s : State) (req : Request) (rest : List Request) (cs : List CharCode),
      s.pending = req :: rest → req.Supplies .chars cs →
      (∀ v0 v1 v2, R50Slot cs 0 v0 → R50Slot cs 1 v1 → R50Slot cs 2 v2 →
        v0 * 1600 + v1 * 40 + v2 ≤ 63999 ∧
          exec .r50Enc s = .next (s.answer req rest (.complete (.w16s [BitVec.ofNat 16 (v0 * 1600 + v1 * 40 + v2)])))) ∧
        ((∃ c ∈ cs.take 3, ∀ v, ¬ R50Symbol c v) →
          exec .r50Enc s = .next (s.answer req rest (.raise .badSymbol)))

/-- R50.DEC (R171): three characters of the alphabet; BAD_CODE above 63999; BAD_LENGTH for any count but one. -/
def Obligations.R50DecString : Prop :=
  decode 0x2A00000000000000 = .ok .r50Dec ∧
    ∀ (s : State) (req : Request) (rest : List Request) (ws : List W16),
      s.pending = req :: rest → req.Supplies .w16s ws →
      (∀ code, ws = [code] → code.toNat ≤ 63999 →
        exec .r50Dec s = .next (s.answer req rest (.complete (.chars
          [r50CharOut (code.toNat / 1600), r50CharOut (code.toNat % 1600 / 40), r50CharOut (code.toNat % 40)])))) ∧
        (∀ code, ws = [code] → code.toNat > 63999 →
          exec .r50Dec s = .next (s.answer req rest (.raise .badCode))) ∧
        (ws.length ≠ 1 → exec .r50Dec s = .next (s.answer req rest (.raise .badLength)))

/-- The inverse laws of Radix-50 (42_legacy_format.md section 3; the second half the spec's own inference): decode after encode
gives the first three characters in upper case, padded with spaces; encode after decode gives the code back, with each symbol
value 29 replaced by 0. -/
def Obligations.Radix50Inverses : Prop :=
  (∀ cs : List CharCode, (∀ c ∈ cs.take 3, ∃ v, R50Symbol c v) →
      ∃ w, Gives 0x2200000000000000 (.chars cs) w ∧
        Gives 0x2A00000000000000 w (.chars ((cs.take 3).map upperCase ++ List.replicate (3 - cs.length) 0x20))) ∧
    ∀ code : W16, code.toNat ≤ 63999 →
      ∃ x, Gives 0x2A00000000000000 (.w16s [code]) x ∧
        Gives 0x2200000000000000 x (.w16s [BitVec.ofNat 16 (withoutUnused (code.toNat / 1600) * 1600
          + withoutUnused (code.toNat % 1600 / 40) * 40 + withoutUnused (code.toNat % 40))])

/-! ## TBC -/

/-- S2V (43_textual_binary.md R191): index to index; BAD_SYMBOL for any other character. -/
def Obligations.S2vBits : Prop :=
  decode 0x3000000000000000 = .ok .s2v ∧
    ∀ (s : State) (req : Request) (rest : List Request) (cs : List CharCode),
      s.pending = req :: rest → req.Supplies .chars cs →
      ((∀ c ∈ cs, c = 0x30 ∨ c = 0x31) →
        exec .s2v s = .next (s.answer req rest (.complete (.bits (cs.map fun c => decide (c = 0x31)))))) ∧
        ((∃ c ∈ cs, c ≠ 0x30 ∧ c ≠ 0x31) → exec .s2v s = .next (s.answer req rest (.raise .badSymbol)))

/-- V2S (R192). -/
def Obligations.V2sString : Prop :=
  decode 0x3800000000000000 = .ok .v2s ∧
    ∀ (s : State) (req : Request) (rest : List Request) (v : List Bit),
      s.pending = req :: rest → req.Supplies .bits v →
      exec .v2s s = .next (s.answer req rest (.complete (.chars (v.map fun b => if b then 0x31 else 0x30))))

/-- S2P (R193): with `t` the string without its spaces and L its length, ceil(L/8) bytes, bit j of byte k being the character
8k + j from the right; BAD_SYMBOL for a character that is not '0', '1' or space. -/
def Obligations.S2pPackedBytes : Prop :=
  decode 0x3100000000000000 = .ok .s2p ∧
    ∀ (s : State) (req : Request) (rest : List Request) (cs : List CharCode),
      s.pending = req :: rest → req.Supplies .chars cs →
      ((∀ c ∈ cs, c = 0x30 ∨ c = 0x31 ∨ c = 0x20) →
        ∃ out : List Byte,
          exec .s2p s = .next (s.answer req rest (.complete (.bytes out))) ∧
            out.length = ((cs.filter (· ≠ 0x20)).length + 7) / 8 ∧
            ∀ k j, k < out.length → j < 8 →
              (out.getD k 0).getLsbD j =
                (decide (8 * k + j < (cs.filter (· ≠ 0x20)).length) &&
                  decide ((cs.filter (· ≠ 0x20)).getD ((cs.filter (· ≠ 0x20)).length - 1 - (8 * k + j)) 0 = 0x31))) ∧
        ((∃ c ∈ cs, c ≠ 0x30 ∧ c ≠ 0x31 ∧ c ≠ 0x20) → exec .s2p s = .next (s.answer req rest (.raise .badSymbol)))

/-- P2S (R194): bytes from the highest index down, each most significant bit first. -/
def Obligations.P2sString : Prop :=
  decode 0x3900000000000000 = .ok .p2s ∧
    ∀ (s : State) (req : Request) (rest : List Request) (bs : List Byte),
      s.pending = req :: rest → req.Supplies .bytes bs →
      ∃ out : List CharCode,
        exec .p2s s = .next (s.answer req rest (.complete (.chars out))) ∧ out.length = 8 * bs.length ∧
          ∀ j p, j < bs.length → p < 8 →
            out.getD (8 * j + p) 0 = if (bs.getD (bs.length - 1 - j) 0).getLsbD (7 - p) then 0x31 else 0x30

/-- The laws of the textual codec (43_textual_binary.md section 4; the last three inferences of the spec): S2V and V2S are
inverse; S2P after P2S gives the bytes back; P2S after S2P strips the spaces and pads with '0' on the left to whole bytes; on
eight characters S2P is S2V followed by V2B.B msb. -/
def Obligations.TextualInverses : Prop :=
  (∀ cs : List CharCode, (∀ c ∈ cs, c = 0x30 ∨ c = 0x31) →
      ∃ v, Gives 0x3000000000000000 (.chars cs) v ∧ Gives 0x3800000000000000 v (.chars cs)) ∧
    (∀ v : List Bit, ∃ cs, Gives 0x3800000000000000 (.bits v) cs ∧ Gives 0x3000000000000000 cs (.bits v)) ∧
    (∀ bs : List Byte, ∃ cs, Gives 0x3900000000000000 (.bytes bs) cs ∧ Gives 0x3100000000000000 cs (.bytes bs)) ∧
    (∀ cs : List CharCode, (∀ c ∈ cs, c = 0x30 ∨ c = 0x31 ∨ c = 0x20) →
      ∃ b, Gives 0x3100000000000000 (.chars cs) b ∧
        Gives 0x3900000000000000 b (.chars
          (List.replicate (((cs.filter (· ≠ 0x20)).length + 7) / 8 * 8 - (cs.filter (· ≠ 0x20)).length) 0x30
            ++ cs.filter (· ≠ 0x20)))) ∧
    ∀ cs : List CharCode, cs.length = 8 → (∀ c ∈ cs, c = 0x30 ∨ c = 0x31) →
      ∃ v b, Gives 0x3000000000000000 (.chars cs) v ∧ Gives 0x1800000000000000 v b ∧ Gives 0x3100000000000000 (.chars cs) b

/-! ## The host's side -/

/-- The command words of assembled lines (30_encoding.md R83): the fields where R83 puts them; `n` above 63 and `off` above
2^32 - 1 rejected, an `n` merely outside the operation's range not. -/
def Obligations.AssembledWord : Prop :=
  ∀ (src : Source) (dst : Name),
    (∀ (o : BitOrder) (n : Nat),
      assemble { instr := .b2vB o n, src := src, dst := dst } =
          (if n ≤ 63 then some (0x10#8 ++ (if o = .lsbFirst then 1#1 else 0#1) ++ 0#1 ++ BitVec.ofNat 6 n ++ 0#16 ++ 0#32)
            else none) ∧
        assemble { instr := .b2vW o n, src := src, dst := dst } =
          (if n ≤ 63 then some (0x11#8 ++ (if o = .lsbFirst then 1#1 else 0#1) ++ 0#1 ++ BitVec.ofNat 6 n ++ 0#16 ++ 0#32)
            else none)) ∧
      (∀ o : BitOrder,
        assemble { instr := .v2bB o, src := src, dst := dst } =
            some (0x18#8 ++ (if o = .lsbFirst then 1#1 else 0#1) ++ 0#1 ++ 0#6 ++ 0#16 ++ 0#32) ∧
          assemble { instr := .v2bW o, src := src, dst := dst } =
            some (0x19#8 ++ (if o = .lsbFirst then 1#1 else 0#1) ++ 0#1 ++ 0#6 ++ 0#16 ++ 0#32)) ∧
      (∀ off : Nat,
        assemble { instr := .midDec off, src := src, dst := dst } =
            (if off ≤ 2 ^ 32 - 1 then some (0x28#8 ++ 0#1 ++ 0#1 ++ 0#6 ++ 0#16 ++ BitVec.ofNat 32 off) else none) ∧
          assemble { instr := .vaxdDec off, src := src, dst := dst } =
            (if off ≤ 2 ^ 32 - 1 then some (0x29#8 ++ 0#1 ++ 0#1 ++ 0#6 ++ 0#16 ++ BitVec.ofNat 32 off) else none)) ∧
      ∀ e ∈ [(Instr.encI16, 0x00#8), (.encI32, 0x01#8), (.encI64, 0x02#8), (.encF32, 0x03#8), (.encF64, 0x04#8),
          (.decI16, 0x08#8), (.decI32, 0x09#8), (.decI64, 0x0A#8), (.decF32, 0x0B#8), (.decF64, 0x0C#8),
          (.midEnc, 0x20#8), (.vaxdEnc, 0x21#8), (.r50Enc, 0x22#8), (.r50Dec, 0x2A#8), (.s2v, 0x30#8), (.s2p, 0x31#8),
          (.v2s, 0x38#8), (.p2s, 0x39#8)],
        assemble { instr := e.1, src := src, dst := dst } = some (e.2 ++ 0#56)

/-- How a program runs (30_encoding.md R92, as the model reads it: log entry 15), from its first line on. An ill-formed program
is refused before it runs. A well-formed line after a completed program is a transaction: answered OK it binds its destination
buffer, answered otherwise it stops the program with its number and status and the environment as it was. A stopped program
stays stopped, whatever lines follow. -/
def Obligations.HostProgramLineByLine : Prop :=
  ∀ env : Env,
    runProgram env [] = .completed env ∧
      (∀ ls, programOk (env.map fun entry => (entry.1, entry.2.itemType)) ls = false → runProgram env ls = .illFormed) ∧
      (∀ (ls : List Line) (l : Line) (e : Env),
        programOk (env.map fun entry => (entry.1, entry.2.itemType)) (ls ++ [l]) = true →
        runProgram env ls = .completed e →
        ∃ p r, l.src.ports e = some p ∧ transaction (encode l.instr) p.1 p.2 = some r ∧
          runProgram env (ls ++ [l]) =
            if r.status = .ok then .completed (e.set l.dst r.out) else .stopped (ls.length + 1) r.status e) ∧
      ∀ (ls more : List Line) (k : Nat) (st : Status) (e : Env),
        programOk (env.map fun entry => (entry.1, entry.2.itemType)) (ls ++ more) = true →
        runProgram env ls = .stopped k st e → runProgram env (ls ++ more) = .stopped k st e

/-! ## The ports -/

/-- The ports are typed (10_state.md R32): every command that can be outstanding has an input of its operation's item type, and is
the one that its ports name; and whatever word stands at `CW`, an input of its operation's item type or an absent input is a
command that can be outstanding. Two clauses are the model's choice. That the `[]` without an item type is taken at every
operation's port (`hasType` holds of it) is log entry 6. That a word that no operation has stands with any input is log entry 5:
the spec says of such a command only that `IN` is not looked at (60_exceptions.md R212). -/
def Obligations.CommandsAreTyped : Prop :=
  (∀ req : Request, req.wellTyped = true ∧ Op.ofPorts req.op.cw req.op.input = some req.op) ∧
    (∀ (cw : CommandWord) (i : Instr) (x : Items), decode cw = .ok i →
      ((Op.ofPorts cw (some x)).isSome = true ↔ x.hasType (inputType i) = true) ∧
        (x.itemType = some (inputType i) → ∃ op : Op, op.cw = cw ∧ op.input = some x)) ∧
      (∀ cw : CommandWord, ∃ op : Op, op.cw = cw ∧ op.input = none) ∧
        ∀ (cw : CommandWord) (x : Option Items), (¬ ∃ i, decode cw = .ok i) → ∃ op : Op, op.cw = cw ∧ op.input = x
end

