-- ==== Sys2Proof/Laws/Encoding.lean ====
section
/-! SUPPORT. Splitting a command word into its fields and joining them again (30_encoding.md R70). -/

namespace Sys2Proof

/-- The number a concatenation stands for: the first pattern in the more significant position (00_scope.md R12). -/
theorem toNat_append_eq {n m : Nat} (x : BitVec n) (y : BitVec m) :
    (x ++ y).toNat = x.toNat * 2 ^ m + y.toNat := by
  rw [BitVec.toNat_append, ← Nat.shiftLeft_add_eq_or_of_lt y.isLt, Nat.shiftLeft_eq]

theorem Fields.toNat_toWord (f : Fields) :
    f.toWord.toNat =
      ((((f.op.toNat * 2 + f.ord.toNat) * 2 + f.rsv1.toNat) * 64 + f.n.toNat) * 65536 + f.rsv2.toNat) * 4294967296
        + f.off.toNat := by
  simp only [Fields.toWord]
  rw [toNat_append_eq, toNat_append_eq, toNat_append_eq, toNat_append_eq, toNat_append_eq]
  norm_num

/-- Each field is read back from the joined word. -/
theorem Fields.ofWord_toWord (f : Fields) : Fields.ofWord f.toWord = f := by
  have h := f.toNat_toWord
  obtain ⟨op, ord, rsv1, n, rsv2, off⟩ := f
  simp only at h
  simp only [Fields.ofWord, Fields.mk.injEq]
  refine ⟨?_, ?_, ?_, ?_, ?_, ?_⟩ <;>
    (apply BitVec.eq_of_toNat_eq
     rw [BitVec.extractLsb'_toNat, h, Nat.shiftRight_eq_div_pow]
     have := op.isLt; have := ord.isLt; have := rsv1.isLt
     have := n.isLt; have := rsv2.isLt; have := off.isLt
     omega)

/-- Joining the fields of a word gives the word. -/
theorem Fields.toWord_ofWord (w : CommandWord) : (Fields.ofWord w).toWord = w := by
  apply BitVec.eq_of_toNat_eq
  rw [Fields.toNat_toWord]
  simp only [Fields.ofWord, BitVec.extractLsb'_toNat, Nat.shiftRight_eq_div_pow]
  omega

/-- The two values of the `ORD` bit name the two bit orders (R72). -/
@[simp] theorem BitOrder.ofBit_toBit (o : BitOrder) : BitOrder.ofBit o.toBit = o := by
  cases o <;> rfl

@[simp] theorem BitOrder.toBit_ofBit (b : BitVec 1) : (BitOrder.ofBit b).toBit = b := by
  revert b; decide

end Sys2Proof
end

