-- ==== Sys2Proof/Laws/State.lean ====
section
/-! SUPPORT. What each update of the state leaves in each field. -/

namespace Sys2Proof.Machine

@[simp] theorem State.answer_pending (s : State) (req : Request) (rest : List Request) (r : Result) :
    (s.answer req rest r).pending = rest := rfl

@[simp] theorem State.answer_delivered (s : State) (req : Request) (rest : List Request) (r : Result) :
    (s.answer req rest r).delivered = s.delivered ++ [{ requester := req.requester, result := r }] := rfl

@[simp] theorem State.submit_pending (s : State) (r : Request) : (s.submit r).pending = s.pending ++ [r] := rfl

@[simp] theorem State.submit_delivered (s : State) (r : Request) : (s.submit r).delivered = s.delivered := rfl

@[simp] theorem State.applyReset_pending (s : State) : s.applyReset.pending = [] := rfl

@[simp] theorem State.applyReset_delivered (s : State) : s.applyReset.delivered = s.delivered := rfl

/-- The word that `withFetchWord` places is the next command. -/
theorem State.withFetchWord_pending {s : State} {nbits w : Nat} {op : Op}
    (h : Op.ofPorts (BitVec.ofNat 64 (w % 2 ^ nbits)) none = some op) :
    (s.withFetchWord nbits w).pending = { requester := 0, op := op } :: s.pending := by
  simp [State.withFetchWord, h]

@[simp] theorem State.withFetchWord_delivered (s : State) (nbits w : Nat) :
    (s.withFetchWord nbits w).delivered = s.delivered := by
  unfold State.withFetchWord
  split <;> rfl

@[simp] theorem State.reset_pending : State.reset.pending = [] := rfl

@[simp] theorem State.reset_delivered : State.reset.delivered = [] := rfl

@[simp] theorem Result.complete_status (out : Items) : (Result.complete out).status = .ok := rfl

@[simp] theorem Result.complete_out (out : Items) : (Result.complete out).out = out := rfl

@[simp] theorem Result.raise_status (st : Status) : (Result.raise st).status = st := rfl

@[simp] theorem Result.raise_out (st : Status) : (Result.raise st).out = .empty := rfl

end Sys2Proof.Machine
end

