-- ==== Sys2Proof/Laws/Ops.lean ====
section
/-! SUPPORT. Once for each shared operation: everything it can do. -/

namespace Sys2Proof.Machine

/-- With `MAXLEN` unbounded every sequence fits. -/
@[simp] theorem Items.fits_maxLen (xs : Items) : xs.fits Config.maxLen = true := rfl

/-- Responding to an outstanding command always answers. -/
theorem respond_eq {s : State} {req : Request} {rest : List Request} (h : s.pending = req :: rest) (r : Result) :
    s.respond r = .next (s.answer req rest r) := by
  simp [State.respond, h]

/-- A transaction on an operand of the right type answers with the operation's result. -/
theorem transact_eq {α : Type} {s : State} {req : Request} {rest : List Request} {view : Items → Option α} {a : α}
    (h : s.pending = req :: rest) (hv : view req.operand = some a) (op : α → Result) :
    s.transact view op = .next (s.answer req rest (op a)) := by
  simp [State.transact, h, hv, respond_eq h]

/-- All a transaction can do when it answers: the first outstanding command had the right item type and is answered by the
operation's result, and nothing else changed. -/
theorem transact_next {α : Type} {s t : State} {view : Items → Option α} {op : α → Result}
    (h : s.transact view op = .next t) :
    ∃ req rest a, s.pending = req :: rest ∧ view req.operand = some a ∧ t = s.answer req rest (op a) := by
  cases hp : s.pending with
  | nil => simp [State.transact, hp] at h
  | cons req rest =>
    cases hv : view req.operand with
    | none => simp [State.transact, hp, hv] at h
    | some a =>
      rw [transact_eq hp hv] at h
      exact ⟨req, rest, a, rfl, hv, by simpa using h.symm⟩

/-- A transaction with no command outstanding is stuck. -/
theorem transact_noCommand {α : Type} {s : State} (h : s.pending = []) (view : Items → Option α) (op : α → Result) :
    s.transact view op = .fault .noCommand := by
  simp [State.transact, h]

/-- A transaction on an operand of another type is refused. -/
theorem transact_illTyped {α : Type} {s : State} {req : Request} {rest : List Request} {view : Items → Option α}
    (h : s.pending = req :: rest) (hv : view req.operand = none) (op : α → Result) :
    s.transact view op = .refused .illTypedOperand := by
  simp [State.transact, h, hv]

/-- A step with a legal command outstanding runs its instruction. -/
theorem step_legal {s : State} {req : Request} {rest : List Request} {i : Instr} (h : s.pending = req :: rest)
    (hd : decode req.cw = .ok i) : step s = exec i s := by
  simp [step, h, hd]

/-- A step with an illegal command outstanding reports it. -/
theorem step_illegal {s : State} {req : Request} {rest : List Request} {e : IllegalReason} (h : s.pending = req :: rest)
    (hd : decode req.cw = .error e) : step s = .next (s.answer req rest (.raise .illegalCommand)) := by
  simp [step, h, hd, respond_eq h]

/-- A step with nothing outstanding leaves the unit idle. -/
theorem step_idle {s : State} (h : s.pending = []) : step s = .next s := by
  simp [step, h]

end Sys2Proof.Machine
end

