-- ==== Sys2Proof/Laws/Operands.lean ====
section
/-! SUPPORT. What the operand port yields for a command that supplies items of a type, and the small lemmas of the byte and
bit layouts. -/

namespace Sys2Proof.Machine

theorem Request.operand_absent {req : Request} (h : req.inPresent = false) : req.operand = .empty := by
  simp [Request.operand, h]

theorem Request.operand_present {req : Request} (h : req.inPresent = true) : req.operand = req.input := by
  simp [Request.operand, h]

/-- The operand of a command that supplies `xs`: `xs` at its type, or the untyped `[]` when there are none. -/
theorem Request.Supplies.operand {α : Type} {req : Request} {seq : List α → Items} {xs : List α}
    (h : req.Supplies seq xs) : req.operand = seq xs ∨ (req.operand = .empty ∧ xs = []) := by
  rcases h with ⟨hp, hi⟩ | ⟨hp | hi, hx⟩
  · exact .inl (by rw [Request.operand_present hp, hi])
  · exact .inr ⟨Request.operand_absent hp, hx⟩
  · refine .inr ⟨?_, hx⟩
    unfold Request.operand
    split
    · exact hi
    · rfl

theorem Request.Supplies.asBytes {req : Request} {xs : List Byte} (h : req.Supplies .bytes xs) :
    req.operand.asBytes = some xs := by
  rcases h.operand with e | ⟨e, rfl⟩ <;> rw [e] <;> rfl

theorem Request.Supplies.asW16s {req : Request} {xs : List W16} (h : req.Supplies .w16s xs) :
    req.operand.asW16s = some xs := by
  rcases h.operand with e | ⟨e, rfl⟩ <;> rw [e] <;> rfl

theorem Request.Supplies.asW32s {req : Request} {xs : List W32} (h : req.Supplies .w32s xs) :
    req.operand.asW32s = some xs := by
  rcases h.operand with e | ⟨e, rfl⟩ <;> rw [e] <;> rfl

theorem Request.Supplies.asW64s {req : Request} {xs : List W64} (h : req.Supplies .w64s xs) :
    req.operand.asW64s = some xs := by
  rcases h.operand with e | ⟨e, rfl⟩ <;> rw [e] <;> rfl

theorem Request.Supplies.asBits {req : Request} {xs : List Bit} (h : req.Supplies .bits xs) :
    req.operand.asBits = some xs := by
  rcases h.operand with e | ⟨e, rfl⟩ <;> rw [e] <;> rfl

theorem Request.Supplies.asChars {req : Request} {xs : List CharCode} (h : req.Supplies .chars xs) :
    req.operand.asChars = some xs := by
  rcases h.operand with e | ⟨e, rfl⟩ <;> rw [e] <;> rfl

@[simp] theorem encodeWords_nil {w : Nat} : encodeWords ([] : List (BitVec w)) = [] := rfl

@[simp] theorem encodeWords_cons {w : Nat} (v : BitVec w) (ws : List (BitVec w)) :
    encodeWords (v :: ws) = bigEndianBytes v ++ encodeWords ws := rfl

@[simp] theorem bigEndianBytes_length {w : Nat} (v : BitVec w) : (bigEndianBytes v).length = w / 8 := by
  simp [bigEndianBytes]

@[simp] theorem encodeWords_length {w : Nat} (ws : List (BitVec w)) : (encodeWords ws).length = ws.length * (w / 8) := by
  induction ws with
  | nil => simp
  | cons v ws ih => simp [ih, Nat.succ_mul, Nat.add_comm]

@[simp] theorem takeWords_length (w n : Nat) (bs : List Byte) : (takeWords w n bs).length = n := by
  induction n generalizing bs with
  | zero => rfl
  | succ n ih => simp [takeWords, ih]

@[simp] theorem decodeWords_length (w : Nat) (bs : List Byte) : (decodeWords w bs).length = bs.length / (w / 8) := by
  simp [decodeWords]

@[simp] theorem bitsOf_length (ord : BitOrder) (n : Nat) {w : Nat} (v : BitVec w) : (bitsOf ord n v).length = n := by
  cases ord <;> simp [bitsOf]

/-- A bit vector of length L has a value below 2^L (41_bit_vector.md R133: r fits). -/
theorem natOfBitsLsb_lt (bs : List Bit) : natOfBitsLsb bs < 2 ^ bs.length := by
  induction bs with
  | nil => simp [natOfBitsLsb]
  | cons b bs ih =>
    have hb : b.toNat ≤ 1 := Bool.toNat_le b
    simp only [natOfBitsLsb, List.length_cons, Nat.pow_succ]
    omega

@[simp] theorem middleEndianBytes_length (v : W32) : (middleEndianBytes v).length = 4 := rfl

@[simp] theorem vaxBytes_length (order : HalfOrder) (V : W64) : (vaxBytes order V).length = 8 := by
  cases order <;> rfl

@[simp] theorem packBits_length (n : Nat) (bs : List Bit) : (packBits n bs).length = n := by
  induction n generalizing bs with
  | zero => rfl
  | succ n ih => simp [packBits, ih]

end Sys2Proof.Machine
end

