-- ==== Sys2Proof/Laws/PerInstr.lean ====
section
/-! SUPPORT. The per-instruction family: the fields of an instruction decode to it. -/

namespace Sys2Proof.Laws.FieldsDecode

/-- The fields the encoder sets for a well-formed instruction decode to that instruction (30_encoding.md R76, R79, R83). -/
def Statement (i : Instr) : Prop := i.wellFormed = true → decodeFields i.fields = .ok i

theorem encI16 : Statement .encI16 := fun _ => rfl

theorem encI32 : Statement .encI32 := fun _ => rfl

theorem encI64 : Statement .encI64 := fun _ => rfl

theorem encF32 : Statement .encF32 := fun _ => rfl

theorem encF64 : Statement .encF64 := fun _ => rfl

theorem decI16 : Statement .decI16 := fun _ => rfl

theorem decI32 : Statement .decI32 := fun _ => rfl

theorem decI64 : Statement .decI64 := fun _ => rfl

theorem decF32 : Statement .decF32 := fun _ => rfl

theorem decF64 : Statement .decF64 := fun _ => rfl

theorem b2vB (ord : BitOrder) (n : Nat) : Statement (.b2vB ord n) := by
  intro h
  have hn : n % 64 = n := Nat.mod_eq_of_lt (by simpa [Instr.wellFormed] using h)
  simp [Instr.fields, Fields.ofOp, decodeFields, decodeOp, decodeOrdN, hn]

theorem b2vW (ord : BitOrder) (n : Nat) : Statement (.b2vW ord n) := by
  intro h
  have hn : n % 64 = n := Nat.mod_eq_of_lt (by simpa [Instr.wellFormed] using h)
  simp [Instr.fields, Fields.ofOp, decodeFields, decodeOp, decodeOrdN, hn]

theorem v2bB (ord : BitOrder) : Statement (.v2bB ord) := by
  cases ord <;> exact fun _ => rfl

theorem v2bW (ord : BitOrder) : Statement (.v2bW ord) := by
  cases ord <;> exact fun _ => rfl

theorem midEnc : Statement .midEnc := fun _ => rfl

theorem vaxdEnc : Statement .vaxdEnc := fun _ => rfl

theorem r50Enc : Statement .r50Enc := fun _ => rfl

theorem midDec (off : Nat) : Statement (.midDec off) := by
  intro h
  have ho : off % 4294967296 = off := Nat.mod_eq_of_lt (by simpa [Instr.wellFormed] using h)
  simp [Instr.fields, Fields.ofOp, decodeFields, decodeOp, decodeOff, ho]

theorem vaxdDec (off : Nat) : Statement (.vaxdDec off) := by
  intro h
  have ho : off % 4294967296 = off := Nat.mod_eq_of_lt (by simpa [Instr.wellFormed] using h)
  simp [Instr.fields, Fields.ofOp, decodeFields, decodeOp, decodeOff, ho]

theorem r50Dec : Statement .r50Dec := fun _ => rfl

theorem s2v : Statement .s2v := fun _ => rfl

theorem s2p : Statement .s2p := fun _ => rfl

theorem v2s : Statement .v2s := fun _ => rfl

theorem p2s : Statement .p2s := fun _ => rfl

end Sys2Proof.Laws.FieldsDecode
end

