-- ==== Sys2Proof/Laws/Ports.lean ====
section
/-! SUPPORT. The commands that can stand at the ports. -/

namespace Sys2Proof.Machine

/-- A word that no operation has can stand with any input. -/
theorem Op.ofPorts_illegal (cw : CommandWord) (input : Option Items) (h : (decode cw).isOk = false) :
    Op.ofPorts cw input = some (.illegal ⟨cw, h⟩ input) := by
  unfold Op.ofPorts
  split
  · rename_i i hi
    rw [hi] at h
    cases h
  · rfl

/-- A word that decodes to `i` stands with an input of the item type of `i`. -/
theorem Op.ofPorts_legal {cw : CommandWord} {i : Instr} (h : decode cw = .ok i) (input : Option Items) :
    Op.ofPorts cw input = Op.ofInstr input i := by
  unfold Op.ofPorts
  split
  · rename_i j hj
    rw [h] at hj
    cases hj
    rfl
  · rename_i e he
    rw [h] at he
    cases he

/-- Every word can stand with absent input. -/
theorem Op.ofPorts_absent (cw : CommandWord) : (Op.ofPorts cw none).isSome = true := by
  cases h : decode cw with
  | ok i => rw [Op.ofPorts_legal h]; cases i <;> rfl
  | error e => rw [Op.ofPorts_illegal cw none (by rw [h]; rfl)]; rfl

/-- The operand of a request is what its operation carries. -/
theorem Request.operand_eq (req : Request) : req.operand = req.op.input.getD .empty := by
  unfold Request.operand Request.inPresent Request.input
  cases req.op.input <;> rfl

/-- The response to a legal command: `c` is the command at the ports, `i` its instruction, and the instruction's meaning computes
`op` from what `c` carries. -/
theorem transaction_eq {α : Type} {cw : CommandWord} {present : Bool} {x : Items} {c : Op} {i : Instr}
    {view : Items → Option α} {a : α} {op : α → Result}
    (hc : Op.ofPorts cw (if present then some x else none) = some c) (hd : decode c.cw = .ok i)
    (he : ∀ s, exec i s = s.transact view op) (hv : view (c.input.getD .empty) = some a) :
    transaction cw present x = some (op a) := by
  have hp : (State.reset.submit { requester := 0, op := c }).pending = { requester := 0, op := c } :: [] := rfl
  have hs : step (State.reset.submit { requester := 0, op := c }) = _ :=
    (step_legal hp hd).trans ((he _).trans (transact_eq hp (by rw [Request.operand_eq]; exact hv) op))
  simp [transaction, hc, hs]

end Sys2Proof.Machine
end

