-- ==== Sys2Proof/Tests/Slice0.lean ====
section
/-! SUPPORT. Tests of the model: ill-formed instructions, every decoding on a word written out from 30_encoding.md R70, R76,
the vectors of 95_test_vectors.md (named in each test), and one witness for each statement of
Certificates/Slice0/Obligations.lean that has hypotheses. -/

namespace Sys2Proof.Tests

open Sys2Proof Sys2Proof.Machine

/-- A command from host 1. -/
def ask (op : Op) : Request :=
  { requester := 1, op := op }

/-- The state in which these commands are outstanding. -/
def serving (qs : List Request) : State :=
  { pending := qs, delivered := [] }

/-! ## Well-formedness: each check refuses an ill-formed term, and takes the largest well-formed one -/

theorem test_wf_b2vB :
    (Instr.b2vB .msbFirst 64).wellFormed = false ∧ (Instr.b2vB .msbFirst 63).wellFormed = true := by decide
theorem test_wf_b2vW :
    (Instr.b2vW .lsbFirst 64).wellFormed = false ∧ (Instr.b2vW .lsbFirst 63).wellFormed = true := by decide
theorem test_wf_midDec :
    (Instr.midDec 4294967296).wellFormed = false ∧ (Instr.midDec 4294967295).wellFormed = true := by decide
theorem test_wf_vaxdDec :
    (Instr.vaxdDec 4294967296).wellFormed = false ∧ (Instr.vaxdDec 4294967295).wellFormed = true := by decide

/-! ## Decoding: OP, ORD, RSV1, N, RSV2, OFF written out by R70, OP by R76 -/

theorem test_decode_encI16 :
    decode (0b00000000#8 ++ 0b0#1 ++ 0b0#1 ++ 0b000000#6 ++ 0#16 ++ 0#32) = .ok .encI16 := by decide
theorem test_decode_encI32 :
    decode (0b00000001#8 ++ 0b0#1 ++ 0b0#1 ++ 0b000000#6 ++ 0#16 ++ 0#32) = .ok .encI32 := by decide
theorem test_decode_encI64 :
    decode (0b00000010#8 ++ 0b0#1 ++ 0b0#1 ++ 0b000000#6 ++ 0#16 ++ 0#32) = .ok .encI64 := by decide
theorem test_decode_encF32 :
    decode (0b00000011#8 ++ 0b0#1 ++ 0b0#1 ++ 0b000000#6 ++ 0#16 ++ 0#32) = .ok .encF32 := by decide
theorem test_decode_encF64 :
    decode (0b00000100#8 ++ 0b0#1 ++ 0b0#1 ++ 0b000000#6 ++ 0#16 ++ 0#32) = .ok .encF64 := by decide
theorem test_decode_decI16 :
    decode (0b00001000#8 ++ 0b0#1 ++ 0b0#1 ++ 0b000000#6 ++ 0#16 ++ 0#32) = .ok .decI16 := by decide
theorem test_decode_decI32 :
    decode (0b00001001#8 ++ 0b0#1 ++ 0b0#1 ++ 0b000000#6 ++ 0#16 ++ 0#32) = .ok .decI32 := by decide
theorem test_decode_decI64 :
    decode (0b00001010#8 ++ 0b0#1 ++ 0b0#1 ++ 0b000000#6 ++ 0#16 ++ 0#32) = .ok .decI64 := by decide
theorem test_decode_decF32 :
    decode (0b00001011#8 ++ 0b0#1 ++ 0b0#1 ++ 0b000000#6 ++ 0#16 ++ 0#32) = .ok .decF32 := by decide
theorem test_decode_decF64 :
    decode (0b00001100#8 ++ 0b0#1 ++ 0b0#1 ++ 0b000000#6 ++ 0#16 ++ 0#32) = .ok .decF64 := by decide
theorem test_decode_midEnc :
    decode (0b00100000#8 ++ 0b0#1 ++ 0b0#1 ++ 0b000000#6 ++ 0#16 ++ 0#32) = .ok .midEnc := by decide
theorem test_decode_vaxdEnc :
    decode (0b00100001#8 ++ 0b0#1 ++ 0b0#1 ++ 0b000000#6 ++ 0#16 ++ 0#32) = .ok .vaxdEnc := by decide
theorem test_decode_r50Enc :
    decode (0b00100010#8 ++ 0b0#1 ++ 0b0#1 ++ 0b000000#6 ++ 0#16 ++ 0#32) = .ok .r50Enc := by decide
theorem test_decode_r50Dec :
    decode (0b00101010#8 ++ 0b0#1 ++ 0b0#1 ++ 0b000000#6 ++ 0#16 ++ 0#32) = .ok .r50Dec := by decide
theorem test_decode_s2v : decode (0b00110000#8 ++ 0b0#1 ++ 0b0#1 ++ 0b000000#6 ++ 0#16 ++ 0#32) = .ok .s2v := by decide
theorem test_decode_s2p : decode (0b00110001#8 ++ 0b0#1 ++ 0b0#1 ++ 0b000000#6 ++ 0#16 ++ 0#32) = .ok .s2p := by decide
theorem test_decode_v2s : decode (0b00111000#8 ++ 0b0#1 ++ 0b0#1 ++ 0b000000#6 ++ 0#16 ++ 0#32) = .ok .v2s := by decide
theorem test_decode_p2s : decode (0b00111001#8 ++ 0b0#1 ++ 0b0#1 ++ 0b000000#6 ++ 0#16 ++ 0#32) = .ok .p2s := by decide
theorem test_decode_b2vB :
    decode (0b00010000#8 ++ 0b0#1 ++ 0b0#1 ++ 0b000101#6 ++ 0#16 ++ 0#32) = .ok (.b2vB .msbFirst 5) := by decide
theorem test_decode_b2vW :
    decode (0b00010001#8 ++ 0b1#1 ++ 0b0#1 ++ 0b001100#6 ++ 0#16 ++ 0#32) = .ok (.b2vW .lsbFirst 12) := by decide
theorem test_decode_v2bB :
    decode (0b00011000#8 ++ 0b1#1 ++ 0b0#1 ++ 0b000000#6 ++ 0#16 ++ 0#32) = .ok (.v2bB .lsbFirst) := by decide
theorem test_decode_v2bW :
    decode (0b00011001#8 ++ 0b0#1 ++ 0b0#1 ++ 0b000000#6 ++ 0#16 ++ 0#32) = .ok (.v2bW .msbFirst) := by decide
theorem test_decode_midDec :
    decode (0b00101000#8 ++ 0b0#1 ++ 0b0#1 ++ 0b000000#6 ++ 0#16 ++ 0x80000005#32) =
      .ok (.midDec 0x80000005) := by decide
theorem test_decode_vaxdDec :
    decode (0b00101001#8 ++ 0b0#1 ++ 0b0#1 ++ 0b000000#6 ++ 0#16 ++ 0x00010002#32) = .ok (.vaxdDec 0x10002) := by decide

/-- D-CW-1 to D-CW-7, each by the case of R79 it falls under. -/
theorem test_decode_illegal :
    decode 0x0500000000000000 = .error .unknownOp ∧ decode 0xFF00000000000000 = .error .unknownOp ∧
      decode 0x0040000000000000 = .error .reservedField ∧ decode 0x0000000100000000 = .error .reservedField ∧
      decode 0x0000000000000001 = .error .unusedField ∧ decode 0x2080000000000000 = .error .unusedField ∧
      decode 0x1808000000000000 = .error .unusedField := by decide
/-- D-CW-8 to D-CW-14: legal words, one of them with an `N` out of its range. -/
theorem test_decode_legal :
    decode 0x1008000000000000 = .ok (.b2vB .msbFirst 8) ∧ decode 0x1088000000000000 = .ok (.b2vB .lsbFirst 8) ∧
      decode 0x1189000000000000 = .ok (.b2vW .lsbFirst 9) ∧ decode 0x1121000000000000 = .ok (.b2vW .msbFirst 33) ∧
      decode 0x2900000000000002 = .ok (.vaxdDec 2) ∧ decode 0x28000000FFFFFFFF = .ok (.midDec 0xFFFFFFFF) ∧
      decode 0x1880000000000000 = .ok (.v2bB .lsbFirst) := by decide
/-- The encoder on the worked examples of R83. -/
theorem test_encode :
    encode (.b2vW .lsbFirst 12) = 0x118C000000000000 ∧ encode (.midDec 5) = 0x2800000000000005 := by decide
theorem test_decodeTableWord :
    decodeTableWord 64 0x2900000000000002 = some (.vaxdDec 2) ∧ decodeTableWord 64 0x0500000000000000 = none := by decide

/-! ## One transaction each, from 95_test_vectors.md -/

/-- D-FW-1 -/
theorem test_encI16 :
    transaction 0x0000000000000000 true (.w16s [0x1234, 0xFFFE, 0x0000]) =
      some (.complete (.bytes [0x12, 0x34, 0xFF, 0xFE, 0x00, 0x00])) := by decide
/-- D-FW-2 -/
theorem test_encI32 :
    transaction 0x0100000000000000 true (.w32s [0x0A0B0C0D, 0x80000000]) =
      some (.complete (.bytes [0x0A, 0x0B, 0x0C, 0x0D, 0x80, 0x00, 0x00, 0x00])) := by decide
/-- D-FW-3 -/
theorem test_encI64 :
    transaction 0x0200000000000000 true (.w64s [0x0102030405060708]) =
      some (.complete (.bytes [0x01, 0x02, 0x03, 0x04, 0x05, 0x06, 0x07, 0x08])) := by decide
/-- D-FW-6: a NaN keeps its payload -/
theorem test_encF32 :
    transaction 0x0300000000000000 true (.w32s [0x7FC00001, 0xFF800000]) =
      some (.complete (.bytes [0x7F, 0xC0, 0x00, 0x01, 0xFF, 0x80, 0x00, 0x00])) := by decide
/-- D-FW-7 -/
theorem test_encF64 :
    transaction 0x0400000000000000 true (.w64s [0x7FF8000000000001]) =
      some (.complete (.bytes [0x7F, 0xF8, 0x00, 0x00, 0x00, 0x00, 0x00, 0x01])) := by decide
/-- D-FW-10 -/
theorem test_enc_absent : transaction 0x0000000000000000 false .empty = some (.complete (.bytes [])) := by decide
/-- D-FW-11: the odd byte is dropped -/
theorem test_decI16 :
    transaction 0x0800000000000000 true (.bytes [0x12, 0x34, 0xFF, 0xFE, 0x99]) =
      some (.complete (.w16s [0x1234, 0xFFFE])) := by decide
/-- D-FW-12 -/
theorem test_decI32 :
    transaction 0x0900000000000000 true (.bytes [1, 2, 3, 4, 5, 6, 7]) =
      some (.complete (.w32s [0x01020304])) := by decide
/-- D-FW-13 -/
theorem test_decI64_short :
    transaction 0x0A00000000000000 true (.bytes [1, 2, 3, 4, 5, 6, 7]) = some (.complete (.w64s [])) := by decide
/-- D-FW-14 -/
theorem test_decI64 :
    transaction 0x0A00000000000000 true (.bytes [1, 2, 3, 4, 5, 6, 7, 8]) =
      some (.complete (.w64s [0x0102030405060708])) := by decide
/-- D-FW-15 -/
theorem test_decF32 :
    transaction 0x0B00000000000000 true (.bytes [0x3F, 0x80, 0x00, 0x00, 0xC0, 0x20, 0x00, 0x00]) =
      some (.complete (.w32s [0x3F800000, 0xC0200000])) := by decide
/-- D-FW-16 -/
theorem test_decF64 :
    transaction 0x0C00000000000000 true (.bytes [0xC0, 0x04, 0x00, 0x00, 0x00, 0x00, 0x00, 0x00]) =
      some (.complete (.w64s [0xC004000000000000])) := by decide
/-- D-FW-20 -/
theorem test_illegal : transaction 0x0000000000000001 true (.w16s [1]) = some (.raise .illegalCommand) := by decide
/-- D-BV-5 -/
theorem test_b2vB_msb :
    transaction 0x1004000000000000 true (.bytes [0xA5]) =
      some (.complete (.bits [false, true, false, true])) := by decide
/-- D-BV-8 -/
theorem test_b2vB_n9 : transaction 0x1009000000000000 true (.bytes [0xB1]) = some (.raise .badLength) := by decide
/-- D-BV-12 -/
theorem test_b2vW_lsb :
    transaction 0x118C000000000000 true (.w32s [0x12345678]) =
      some (.complete (.bits [false, false, false, true, true, true, true, false, false, true, true, false])) := by decide
/-- D-BV-13 -/
theorem test_b2vW_n33 : transaction 0x1121000000000000 true (.w32s [0]) = some (.raise .badLength) := by decide
/-- D-BV-16 -/
theorem test_v2bB_msb :
    transaction 0x1800000000000000 true (.bits [true, false, true, true]) =
      some (.complete (.bytes [0x0B])) := by decide
/-- D-BV-16 -/
theorem test_v2bB_lsb :
    transaction 0x1880000000000000 true (.bits [true, false, true, true]) =
      some (.complete (.bytes [0x0D])) := by decide
/-- D-BV-21 -/
theorem test_v2bW_lsb :
    transaction 0x1980000000000000 true (.bits (List.replicate 31 false ++ [true])) =
      some (.complete (.w32s [0x80000000])) := by decide
/-- D-BV-22 -/
theorem test_v2bW_33 :
    transaction 0x1900000000000000 true (.bits (List.replicate 33 true)) = some (.raise .badLength) := by decide
/-- D-MID-1 -/
theorem test_midEnc :
    transaction 0x2000000000000000 true (.w32s [0x0A0B0C0D]) =
      some (.complete (.bytes [0x0B, 0x0A, 0x0D, 0x0C])) := by decide
/-- D-MID-15 -/
theorem test_midEnc_absent : transaction 0x2000000000000000 false .empty = some (.raise .badLength) := by decide
/-- D-MID-12: the last legal offset -/
theorem test_midDec :
    transaction 0x2800000000000001 true (.bytes [1, 2, 3, 4, 5]) = some (.complete (.w32s [0x03020504])) := by decide
/-- D-MID-13: the sum does not wrap -/
theorem test_midDec_far :
    transaction 0x28000000FFFFFFFF true (.bytes [1, 2, 3, 4]) = some (.raise .outOfRange) := by decide
/-- D-VE-6: pi -/
theorem test_vaxdEnc :
    transaction 0x2100000000000000 true (.w64s [0x400921FB54442D18]) =
      some (.complete (.bytes [0x49, 0x41, 0xDA, 0x0F, 0x21, 0xA2, 0xC0, 0x68])) := by decide
/-- D-VE-15: re-biased exponent 0, sign 1 -/
theorem test_vaxdEnc_reserved :
    transaction 0x2100000000000000 true (.w64s [0xB7E8000000000000]) =
      some (.complete (.bytes [0x40, 0x80, 0x00, 0x00, 0x00, 0x00, 0x00, 0x00])) := by decide
/-- D-VD-8: low fraction bits 010 force the last bit -/
theorem test_vaxdDec :
    transaction 0x2900000000000000 true (.bytes [0x49, 0x41, 0xDA, 0x0F, 0x21, 0xA2, 0xC2, 0x68]) =
      some (.complete (.w64s [0x400921FB54442D19])) := by decide
/-- D-VD-14: exponent 0 with a fraction -/
theorem test_vaxdDec_zero :
    transaction 0x2900000000000000 true (.bytes [0x10, 0x00, 0x00, 0x00, 0x00, 0x00, 0x0F, 0x00]) =
      some (.complete (.w64s [0x0002000000000001])) := by decide
/-- D-R50-8: the fourth character is not looked at -/
theorem test_r50Enc :
    transaction 0x2200000000000000 true (.chars [0x41, 0x42, 0x43, 0x25]) = some (.complete (.w16s [1683])) := by decide
/-- D-R50-8b -/
theorem test_r50Enc_bad :
    transaction 0x2200000000000000 true (.chars [0x41, 0x42, 0x25]) = some (.raise .badSymbol) := by decide
/-- D-R50-15 -/
theorem test_r50Dec :
    transaction 0x2A00000000000000 true (.w16s [47529]) =
      some (.complete (.chars [0x20, 0x2E, 0x49])) := by decide +kernel
/-- D-R50-10 -/
theorem test_r50Dec_bad :
    transaction 0x2A00000000000000 true (.w16s [64000]) = some (.raise .badCode) := by decide +kernel
/-- D-TB-1 -/
theorem test_s2v :
    transaction 0x3000000000000000 true (.chars [0x31, 0x30, 0x31, 0x31]) =
      some (.complete (.bits [true, false, true, true])) := by decide
/-- D-TB-3: S2V strips no space -/
theorem test_s2v_bad :
    transaction 0x3000000000000000 true (.chars [0x31, 0x20, 0x30]) = some (.raise .badSymbol) := by decide
/-- D-TB-11 -/
theorem test_s2p :
    transaction 0x3100000000000000 true (.chars [0x31, 0x30, 0x31, 0x30, 0x20, 0x30, 0x31, 0x30, 0x31, 0x20, 0x31]) =
      some (.complete (.bytes [0x4B, 0x01])) := by decide
/-- D-TB-16 -/
theorem test_s2p_bad : transaction 0x3100000000000000 true (.chars [0x31, 0x32]) = some (.raise .badSymbol) := by decide
/-- D-TB-4 -/
theorem test_v2s :
    transaction 0x3800000000000000 true (.bits [true, false, true, true]) =
      some (.complete (.chars [0x31, 0x30, 0x31, 0x31])) := by decide
/-- D-TB-17 -/
theorem test_p2s :
    transaction 0x3900000000000000 true (.bytes [0x4B, 0x01]) =
      some (.complete (.chars [0x30, 0x30, 0x30, 0x30, 0x30, 0x30, 0x30, 0x31, 0x30, 0x31, 0x30, 0x30, 0x31, 0x30, 0x31, 0x31])) := by decide

/-- Ports of another item type cannot stand (R32), and `IN` is ignored when `IN_PRESENT` = 0 (R26). -/
theorem test_typed_ports :
    transaction 0x0000000000000000 true (.bytes [1]) = none ∧
      transaction 0x0000000000000000 false (.bytes [1]) = some (.complete (.bytes [])) := by decide

/-! ## The machine and the host's side -/

/-- A word placed by `withFetchWord` in the reset state is answered by the next step. -/
theorem test_step_from_reset :
    step (State.reset.withFetchWord 64 0x0000000000000000) =
      .next { pending := [], delivered := [{ requester := 0, result := .complete (.bytes []) }] } := by rfl
/-- Responses go to the hosts that asked, in the order of the commands (20_memory.md R56). -/
theorem test_two_hosts :
    Sys2Proof.core.run 2
        (serving [ask (.midEnc (some [0x0A0B0C0D])), { ask (.r50Enc none) with requester := 2 }]) =
      .next (serving [] |> fun s => { s with delivered :=
        [{ requester := 1, result := .complete (.bytes [0x0B, 0x0A, 0x0D, 0x0C]) },
          { requester := 2, result := .complete (.w16s [0]) }] }) := by rfl
/-- The worked examples of R83 and examples of R82. -/
theorem test_parse_b2vW : (parseLine "B2V.W lsb, 12, x -> v".toList).bind assemble = some 0x118C000000000000 := by
  decide +kernel
theorem test_parse_midDec :
    (parseLine "MID.DEC off=5, b -> w ; a comment".toList).bind assemble = some 0x2800000000000005 := by decide +kernel
theorem test_parse_string :
    parseLine "R50.ENC \"ABC\" -> c".toList =
      some { instr := .r50Enc, src := .literal (.chars [0x41, 0x42, 0x43]), dst := ['c'] } := by decide +kernel
theorem test_parse_absent :
    parseLine "DEC.I32 absent -> ws".toList = some { instr := .decI32, src := .absent, dst := ['w', 's'] } := by
  decide +kernel
/-- White space may stand inside `off=` and `[]`, and may be missing between other tokens (log entry 14). -/
theorem test_parse_spaces :
    (parseLine "MID.DEC off = 5 , b->w".toList).bind assemble = some 0x2800000000000005 ∧
      parseLine "DEC.I16 [ ]->b".toList = some { instr := .decI16, src := .literal (.bytes []), dst := ['b'] } := by
  decide +kernel
/-- An operation that takes parameters may not leave them out (log entry 14). -/
theorem test_parse_params :
    parseLine "MID.DEC b -> w".toList = none ∧ parseLine "B2V.B msb, b -> v".toList = none := by decide +kernel
/-- Neither `absent` nor a number is a name, of a source or of a destination (log entry 14). -/
theorem test_parse_name :
    parseLine "DEC.I16 b -> absent".toList = none ∧ parseLine "DEC.I16 b -> 0x12".toList = none ∧
      parseLine "DEC.I16 0x12 -> b".toList = none := by decide +kernel
/-- `n` = 64 does not fit its field; `n` = 33 does, though no B2V.W takes it (R83). -/
theorem test_assemble_range :
    assemble { instr := .b2vW .msbFirst 64, src := .absent, dst := [] } = none ∧
      assemble { instr := .b2vW .msbFirst 33, src := .absent, dst := [] } = some 0x1121000000000000 := by decide

/-- Line 1 of program 2 of 95_test_vectors.md. -/
def headerRead : Line :=
  { instr := .vaxdDec 2, src := .name ['r'], dst := ['x'] }

/-- Line 5 of program 2. -/
def headerPast : Line :=
  { instr := .vaxdDec 3, src := .name ['r'], dst := ['z'] }

/-- The start state of program 2. -/
def headerEnv : Env :=
  [(['r'], .bytes [0xAA, 0x55, 0x49, 0x41, 0xDA, 0x0F, 0x21, 0xA2, 0xC2, 0x68])]

/-- Program 2: the last line reads past the end and stops the program; its buffer stays unbound. -/
theorem test_program_stops :
    runProgram headerEnv [headerRead, headerPast] =
      .stopped 2 .outOfRange ((['x'], .w64s [0x400921FB54442D19]) :: headerEnv) := by decide +kernel
/-- An unbound source, and one of another item type, make a program ill-formed (R92). -/
theorem test_program_illFormed :
    runProgram [] [{ instr := .decI16, src := .name ['b'], dst := ['w'] }] = .illFormed ∧
      runProgram headerEnv [{ instr := .encI16, src := .name ['r'], dst := ['w'] }] = .illFormed := by decide +kernel

/-! ## Witnesses: for every statement with hypotheses, operands that meet them, at the boundaries of its clauses -/

/-- The hypotheses of the per-instruction statements: the operation `op`, handed `xs`, is the next command of a state and
supplies `xs`. -/
def Asked {α : Type} (op : Option (List α) → Op) (seq : List α → Items) (xs : List α) : Prop :=
  ∃ (s : State) (req : Request) (rest : List Request),
    s.pending = req :: rest ∧ req.op = op (some xs) ∧ req.Supplies seq xs

theorem asked {α : Type} {op : Option (List α) → Op} {seq : List α → Items} {xs : List α}
    (h : (op (some xs)).input = some (seq xs)) : Asked op seq xs :=
  ⟨serving [ask (op (some xs))], _, _, rfl, rfl, .inl ⟨by simp [Request.inPresent, ask, h], by simp [Request.input, ask, h]⟩⟩

/-- A command with absent input supplies no items, at every item type. -/
theorem supplies_absent {α : Type} (seq : List α → Items) : (ask (.encI16 none)).Supplies seq [] := .inr ⟨.inl rfl, rfl⟩

theorem witness_DecodeEncode :
    (Instr.b2vB .lsbFirst 63).wellFormed = true ∧ (Instr.vaxdDec 4294967295).wellFormed = true := by decide
theorem witness_EncodeDecode : decode 0x113F000000000000 = .ok (.b2vW .msbFirst 63) := by decide
theorem witness_IllegalCommandWords : (∃ row ∈ opRows, row.admits 0x29000000FFFFFFFF = true) ∧
    (∃ row ∈ matchMasks, (0x29000000FFFFFFFF : CommandWord) &&& row.2 = row.1) ∧
    (serving [ask (.illegal ⟨0x0500000000000000, by decide⟩ none)]).pending = ask (.illegal ⟨0x0500000000000000, by decide⟩ none) :: [] ∧
    ¬ ∃ row ∈ opRows, row.admits (ask (.illegal ⟨0x0500000000000000, by decide⟩ none)).cw = true :=
  ⟨by decide, by decide, rfl, by decide⟩
theorem witness_StepRunsDecoded :
    (serving [ask (.midDec 5 none)]).pending = ask (.midDec 5 none) :: [] ∧
    decode (ask (.midDec 5 none)).cw = .ok (.midDec 5) := ⟨rfl, by decide⟩
theorem witness_FetchedWordRuns : (Instr.midDec 4294967295).wellFormed = true := by decide
theorem witness_StepKeepsInv : (serving [ask (.r50Enc none)]).Inv ∧
    step (serving [ask (.r50Enc none)]) =
      .next { pending := [], delivered := [{ requester := 1, result := .complete (.w16s [0]) }] } :=
  ⟨⟨by decide, by decide⟩, by rfl⟩
theorem witness_CommandsAreTyped :
    decode 0x0800000000000000 = .ok .decI16 ∧ (Items.bytes [1]).itemType = some (inputType .decI16) ∧
      (Items.w16s [1]).hasType (inputType .decI16) = false ∧ ¬ ∃ i, decode 0x0500000000000000 = .ok i :=
  ⟨by decide, by decide, by decide, fun ⟨i, h⟩ => by cases h⟩
theorem witness_ResponseDependsOnCommandAlone : ∃ (s₁ s₂ t₁ : State) (q₁ q₂ : Request) (rest₁ rest₂ : List Request),
    s₁.pending = q₁ :: rest₁ ∧ s₂.pending = q₂ :: rest₂ ∧ s₁ ≠ s₂ ∧ q₁ ≠ q₂ ∧ q₁.cw = q₂.cw ∧ q₁.inPresent = q₂.inPresent ∧
      (q₁.inPresent = true → q₁.input = q₂.input) ∧ step s₁ = .next t₁ :=
  ⟨serving [ask (.decI16 (some [1, 2]))],
    serving [{ ask (.decI16 (some [1, 2])) with requester := 2 }, ask (.encI16 none)], _, _, _, _, _, rfl, rfl,
    by decide, by decide, rfl, rfl, fun _ => rfl, rfl⟩
theorem witness_TransactionIsTheStep :
    (serving [ask (.r50Enc none)]).pending = ask (.r50Enc none) :: [] := rfl
theorem witness_InterleavingIsInvisible : ∃ s₁ s₂ : State, s₁ ≠ s₂ ∧
    s₁.pending.filter (fun q => q.requester = 1) = s₂.pending.filter (fun q => q.requester = 1) ∧
    s₁.delivered.filter (fun a => a.requester = 1) = s₂.delivered.filter (fun a => a.requester = 1) :=
  ⟨serving [ask (.r50Enc none), { ask (.encI16 none) with requester := 2 }],
    serving [{ ask (.encI16 none) with requester := 2 }, ask (.r50Enc none)],
    by decide, by decide, by decide⟩
theorem witness_ConditionMatrix :
    Status.badCode ∈ conditionsOf .r50Dec ∧ Instr.r50Dec.wellFormed = true ∧
      ∃ t, exec .r50Dec (serving [ask (.r50Dec (some [64000]))]) = .next t :=
  ⟨by decide, rfl, _, rfl⟩
theorem witness_OutputTypeAndLength : (∃ t r, exec .s2v (serving [ask (.s2v (some [0x31]))]) = .next t ∧
      t.delivered = [{ requester := 1, result := r }] ∧ r.status = .ok) ∧
    ∃ t r, exec .s2v (serving [ask (.s2v (some [0x32]))]) = .next t ∧
      t.delivered = [{ requester := 1, result := r }] ∧ r.status ≠ .ok :=
  ⟨⟨_, .complete (.bits [true]), rfl, by decide, rfl⟩, ⟨_, .raise .badSymbol, rfl, by decide, by decide⟩⟩
theorem witness_AbsentInputIsEmpty :
    (serving [ask (.r50Enc none)]).pending = ask (.r50Enc none) :: [] ∧
    (ask (.r50Enc none)).inPresent = false := ⟨rfl, rfl⟩
theorem witness_StatusCodes :
    Status.code .badCode = Status.code .badCode ∧ Status.code .badCode ≠ Status.code .ok := by decide
theorem witness_IllTypedOperandRefused :
    (ask (.decI16 (some [1]))).inPresent = true ∧ (ask (.decI16 (some [1]))).input.hasType (inputType .encI16) = false ∧
    (serving [ask (.decI16 (some [1]))]).pending = ask (.decI16 (some [1])) :: [] ∧ (serving []).pending = [] := by decide
theorem witness_RomTables : (0 : Nat) < 40 ∧ 39 < 40 := by decide
theorem witness_EncI16BigEndian : Asked .encI16 .w16s [0x1234#16, 0xFFFE#16] := asked rfl
theorem witness_EncI32BigEndian : Asked .encI32 .w32s [0x80000000#32] := asked rfl
theorem witness_EncI64BigEndian : Asked .encI64 .w64s [0x0102030405060708#64] := asked rfl
theorem witness_EncF32BigEndian : Asked .encF32 .w32s [0x7FC00001#32] := asked rfl
theorem witness_EncF64BigEndian : Asked .encF64 .w64s [0x7FF8000000000001#64] := asked rfl
theorem witness_DecI16BigEndian : Asked .decI16 .bytes [0x12#8, 0x34#8, 0x99#8] := asked rfl
theorem witness_DecI32BigEndian : Asked .decI32 .bytes [1#8, 2#8, 3#8, 4#8, 5#8] := asked rfl
theorem witness_DecI64BigEndian : Asked .decI64 .bytes [1#8, 2#8, 3#8, 4#8, 5#8, 6#8, 7#8, 8#8] := asked rfl
theorem witness_DecF32BigEndian : Asked .decF32 .bytes [0x3F#8, 0x80#8, 0#8, 0#8] := asked rfl
theorem witness_DecF64BigEndian : Asked .decF64 .bytes [0xC0#8, 4#8, 0#8, 0#8, 0#8, 0#8, 0#8, 0#8] := asked rfl
theorem witness_V2sString : Asked .v2s .bits [true, false, true, true] := asked rfl
theorem witness_P2sString :
    Asked .p2s .bytes [0x4B#8, 0x01#8] ∧ 1 < [0x4B#8, 0x01#8].length ∧ 7 < 8 := ⟨asked rfl, by decide, by decide⟩

theorem witness_B2vByteToBits_bits : Asked (.b2vB .msbFirst 1) .bytes [0xB1#8] ∧ (1 ≤ 1 ∧ 1 ≤ 8) ∧ Asked (.b2vB .lsbFirst 8) .bytes [0xB1#8] ∧
      1 ≤ 8 ∧ 8 ≤ 8 :=
  ⟨asked rfl, by decide, asked rfl, by decide⟩
theorem witness_B2vByteToBits_badLength :
    Asked (.b2vB .msbFirst 1) .bytes ([] : List Byte) ∧ Asked (.b2vB .msbFirst 1) .bytes [1#8, 2#8] ∧ [1#8, 2#8].length ≠ 1 ∧
      Asked (.b2vB .msbFirst 0) .bytes [1#8] ∧ 0 < 1 ∧ Asked (.b2vB .lsbFirst 9) .bytes [1#8] ∧ 9 > 8 :=
  ⟨asked rfl, asked rfl, by decide, asked rfl, by decide, asked rfl, by decide⟩
theorem witness_B2vWordToBits_bits :
    Asked (.b2vW .msbFirst 1) .w32s [0x80000001#32] ∧ (1 ≤ 1 ∧ 1 ≤ 32) ∧ Asked (.b2vW .lsbFirst 32) .w32s [0x80000001#32] ∧
      1 ≤ 32 ∧ 32 ≤ 32 :=
  ⟨asked rfl, by decide, asked rfl, by decide⟩
theorem witness_B2vWordToBits_badLength :
    Asked (.b2vW .msbFirst 1) .w32s ([] : List W32) ∧ Asked (.b2vW .msbFirst 1) .w32s [1#32, 2#32] ∧ [1#32, 2#32].length ≠ 1 ∧
      Asked (.b2vW .msbFirst 0) .w32s [1#32] ∧ 0 < 1 ∧ Asked (.b2vW .lsbFirst 33) .w32s [1#32] ∧ 33 > 32 :=
  ⟨asked rfl, asked rfl, by decide, asked rfl, by decide, asked rfl, by decide⟩
theorem witness_V2bBitsToByte_value :
    Asked (.v2bB .msbFirst) .bits [true] ∧ 1 ≤ [true].length ∧ Asked (.v2bB .msbFirst) .bits (List.replicate 8 true) ∧ (List.replicate 8 true).length ≤ 8 :=
  ⟨asked rfl, by decide, asked rfl, by decide⟩
theorem witness_V2bBitsToByte_badLength :
    Asked (.v2bB .msbFirst) .bits ([] : List Bit) ∧ ([] : List Bit).length < 1 ∧ Asked (.v2bB .msbFirst) .bits (List.replicate 9 true) ∧
      (List.replicate 9 true).length > 8 :=
  ⟨asked rfl, by decide, asked rfl, by decide⟩
theorem witness_V2bBitsToWord_value :
    Asked (.v2bW .lsbFirst) .bits [true] ∧ 1 ≤ [true].length ∧ Asked (.v2bW .lsbFirst) .bits (List.replicate 32 true) ∧
      (List.replicate 32 true).length ≤ 32 :=
  ⟨asked rfl, by decide, asked rfl, by decide⟩
theorem witness_V2bBitsToWord_badLength :
    Asked (.v2bW .lsbFirst) .bits ([] : List Bit) ∧ ([] : List Bit).length < 1 ∧ Asked (.v2bW .lsbFirst) .bits (List.replicate 33 true) ∧
      (List.replicate 33 true).length > 32 :=
  ⟨asked rfl, by decide, asked rfl, by decide⟩
theorem witness_BitVectorRoundTrip :
    BitOrder.msbFirst ≠ .lsbFirst ∧ (1 ≤ 1 ∧ 1 ≤ 8) ∧ (1 ≤ 8 ∧ 8 ≤ 8) ∧ 1 ≤ 32 ∧ 32 ≤ 32 := by decide
theorem witness_MidEncBytes_bytes : Asked .midEnc .w32s [0x80000000#32] := asked rfl
theorem witness_MidEncBytes_badLength :
    Asked .midEnc .w32s ([] : List W32) ∧ Asked .midEnc .w32s [1#32, 2#32] ∧ [1#32, 2#32].length ≠ 1 :=
  ⟨asked rfl, asked rfl, by decide⟩
theorem witness_MidDecWord_word :
    Asked (.midDec 1) .bytes [1#8, 2#8, 3#8, 4#8, 5#8] ∧ 1 + 4 ≤ [1#8, 2#8, 3#8, 4#8, 5#8].length := ⟨asked rfl, by decide⟩
theorem witness_MidDecWord_outOfRange :
    Asked (.midDec 2) .bytes [1#8, 2#8, 3#8, 4#8, 5#8] ∧ 2 + 4 > [1#8, 2#8, 3#8, 4#8, 5#8].length := ⟨asked rfl, by decide⟩
theorem witness_VaxEncPattern_pattern :
    Asked .vaxdEnc .w64s [0x47E0000000000000#64] ∧ (0x47E0000000000000 : W64) = 0#1 ++ 1150#11 ++ 0#52 ∧
    Asked .vaxdEnc .w64s [0xB7EFFFFFFFFFFFFF#64] ∧ (0xB7EFFFFFFFFFFFFF : W64) = 1#1 ++ 894#11 ++ 0xFFFFFFFFFFFFF#52 :=
  ⟨asked rfl, by decide, asked rfl, by decide⟩
theorem witness_VaxEncPattern_badLength :
    Asked .vaxdEnc .w64s ([] : List W64) ∧ Asked .vaxdEnc .w64s [1#64, 2#64] ∧ [1#64, 2#64].length ≠ 1 :=
  ⟨asked rfl, asked rfl, by decide⟩
theorem witness_VaxDecPattern_pattern : ∃ bs : List Byte, Asked (.vaxdDec 1) .bytes bs ∧ 1 + 8 ≤ bs.length ∧
    bs.getD (1 + 1) 0 ++ bs.getD 1 0 ++ bs.getD (1 + 3) 0 ++ bs.getD (1 + 2) 0 ++ bs.getD (1 + 5) 0 ++ bs.getD (1 + 4) 0
      ++ bs.getD (1 + 7) 0 ++ bs.getD (1 + 6) 0 = 0#1 ++ 129#8 ++ 1#55 :=
  ⟨[0xAA, 0x80, 0x40, 0, 0, 0, 0, 1, 0], asked rfl, by decide, by decide⟩
theorem witness_VaxDecPattern_outOfRange :
    Asked (.vaxdDec 1) .bytes (List.replicate 8 0#8) ∧ 1 + 8 > (List.replicate 8 0#8).length := ⟨asked rfl, by decide⟩
theorem witness_VaxEncSaturates : (1150#11).toNat ≥ 1150 ∧ (2047#11).toNat ≥ 1150 := by decide
theorem witness_VaxEncUnderflow : (893#11).toNat ≤ 893 ∧ (894#11).toNat = 894 := by decide
theorem witness_VaxRoundTrips : 895 ≤ (895#11).toNat ∧ (1149#11).toNat ≤ 1149 ∧ 1 ≤ (1#8).toNat := by decide
theorem witness_R50EncCode_code :
    Asked .r50Enc .chars [0x7A#8, 0x39#8] ∧ R50Slot [0x7A#8, 0x39#8] 0 26 ∧ R50Slot [0x7A#8, 0x39#8] 1 39 ∧
    R50Slot [0x7A#8, 0x39#8] 2 0 :=
  ⟨asked rfl, .inl ⟨0x7A, rfl, by unfold R50Symbol; decide⟩, .inl ⟨0x39, rfl, by unfold R50Symbol; decide⟩, .inr ⟨rfl, rfl⟩⟩
theorem witness_R50EncCode_badSymbol : Asked .r50Enc .chars [0x41#8, 0x42#8, 0x25#8] ∧
    ∃ c ∈ [0x41#8, 0x42#8, 0x25#8].take 3, ∀ v, ¬ R50Symbol c v :=
  ⟨asked rfl, 0x25, by decide, fun v h => by simp [R50Symbol] at h⟩
theorem witness_R50DecString_string : Asked .r50Dec .w16s [63999#16] ∧ (63999#16).toNat ≤ 63999 := ⟨asked rfl, by decide⟩
theorem witness_R50DecString_badCode : Asked .r50Dec .w16s [64000#16] ∧ (64000#16).toNat > 63999 := ⟨asked rfl, by decide⟩
theorem witness_R50DecString_badLength :
    Asked .r50Dec .w16s ([] : List W16) ∧ Asked .r50Dec .w16s [1#16, 2#16] ∧ [1#16, 2#16].length ≠ 1 :=
  ⟨asked rfl, asked rfl, by decide⟩
theorem witness_Radix50Inverses : (∀ c ∈ [0x61#8, 0x20#8].take 3, ∃ v, R50Symbol c v) ∧ (63999#16).toNat ≤ 63999 := by
  refine ⟨fun c hc => ?_, by decide⟩
  simp only [List.take, List.mem_cons, List.not_mem_nil, or_false] at hc
  rcases hc with rfl | rfl
  · exact ⟨1, by unfold R50Symbol; decide⟩
  · exact ⟨0, by unfold R50Symbol; decide⟩
theorem witness_S2vBits_bits :
    Asked .s2v .chars [0x30#8, 0x31#8] ∧ ∀ c ∈ [0x30#8, 0x31#8], c = 0x30 ∨ c = 0x31 := ⟨asked rfl, by decide⟩
theorem witness_S2vBits_badSymbol :
    Asked .s2v .chars [0x30#8, 0x20#8] ∧ ∃ c ∈ [0x30#8, 0x20#8], c ≠ 0x30 ∧ c ≠ 0x31 := ⟨asked rfl, by decide⟩
theorem witness_S2pPackedBytes_bytes :
    Asked .s2p .chars [0x30#8, 0x20#8, 0x31#8] ∧ ∀ c ∈ [0x30#8, 0x20#8, 0x31#8], c = 0x30 ∨ c = 0x31 ∨ c = 0x20 :=
  ⟨asked rfl, by decide⟩
theorem witness_S2pPackedBytes_badSymbol :
    Asked .s2p .chars [0x30#8, 0x32#8] ∧ ∃ c ∈ [0x30#8, 0x32#8], c ≠ 0x30 ∧ c ≠ 0x31 ∧ c ≠ 0x20 := ⟨asked rfl, by decide⟩
theorem witness_TextualInverses : ∃ cs : List CharCode, cs.length = 8 ∧ (∀ c ∈ cs, c = 0x30 ∨ c = 0x31) ∧
    ∀ c ∈ [0x20#8, 0x31#8], c = 0x30 ∨ c = 0x31 ∨ c = 0x20 := ⟨List.replicate 8 0x31, by decide, by decide, by decide⟩
theorem witness_HostProgramLineByLine_line :
    programOk (headerEnv.map fun entry => (entry.1, entry.2.itemType)) ([headerRead] ++ [headerPast]) = true ∧
      runProgram headerEnv [headerRead] = .completed ((['x'], .w64s [0x400921FB54442D19]) :: headerEnv) := by decide +kernel
theorem witness_HostProgramLineByLine_stopped :
    programOk (headerEnv.map fun entry => (entry.1, entry.2.itemType)) ([headerRead, headerPast] ++ [headerRead]) = true ∧
      runProgram headerEnv [headerRead, headerPast] =
        .stopped 2 .outOfRange ((['x'], .w64s [0x400921FB54442D19]) :: headerEnv) :=
  ⟨by decide, test_program_stops⟩
theorem witness_HostProgramLineByLine_illFormed :
    programOk (headerEnv.map fun entry => (entry.1, entry.2.itemType)) [{ instr := .s2v, src := .name ['r'], dst := ['v'] }] = false :=
  by decide

end Sys2Proof.Tests
end

