-- ==== Sys2Proof/Proofs/Encoding.lean ====
section
/-! PROOFS. Command words: which words are legal, what an illegal one is answered, and the words of assembled lines
(30_encoding.md R76, R79, R83; 60_exceptions.md R212). -/

namespace Sys2Proof

/-! ### The rows of the opcode map, by the fields they read -/

/-- The operation codes whose operations read no field. -/
def plainOps : List (BitVec 8) :=
  [0x00, 0x01, 0x02, 0x03, 0x04, 0x08, 0x09, 0x0A, 0x0B, 0x0C, 0x20, 0x21, 0x22, 0x2A, 0x30, 0x31, 0x38, 0x39]

/-- The operation codes whose operations read `ORD` and `N`. -/
def ordNOps : List (BitVec 8) := [0x10, 0x11]

/-- The operation codes whose operations read `ORD` alone. -/
def ordOps : List (BitVec 8) := [0x18, 0x19]

/-- The operation codes whose operations read `OFF`. -/
def offOps : List (BitVec 8) := [0x28, 0x29]

theorem decodeOp_of_mem_plainOps {f : Fields} (h : f.op ∈ plainOps) : ∃ i, decodeOp f = decodePlain f i := by
  obtain ⟨op, ord, rsv1, n, rsv2, off⟩ := f
  change op ∈ plainOps at h
  fin_cases h <;> exact ⟨_, rfl⟩

theorem decodeOp_of_mem_ordNOps {f : Fields} (h : f.op ∈ ordNOps) : ∃ i, decodeOp f = decodeOrdN f i := by
  obtain ⟨op, ord, rsv1, n, rsv2, off⟩ := f
  change op ∈ ordNOps at h
  fin_cases h <;> exact ⟨_, rfl⟩

theorem decodeOp_of_mem_ordOps {f : Fields} (h : f.op ∈ ordOps) : ∃ i, decodeOp f = decodeOrd f i := by
  obtain ⟨op, ord, rsv1, n, rsv2, off⟩ := f
  change op ∈ ordOps at h
  fin_cases h <;> exact ⟨_, rfl⟩

theorem decodeOp_of_mem_offOps {f : Fields} (h : f.op ∈ offOps) : ∃ i, decodeOp f = decodeOff f i := by
  obtain ⟨op, ord, rsv1, n, rsv2, off⟩ := f
  change op ∈ offOps at h
  fin_cases h <;> exact ⟨_, rfl⟩

@[simp] theorem decodePlain_legal_iff (f : Fields) (i : Instr) :
    (∃ j, decodePlain f i = .ok j) ↔ f.ord = 0 ∧ f.n = 0 ∧ f.off = 0 := by
  unfold decodePlain
  split <;> simp_all

@[simp] theorem decodeOrdN_legal_iff (f : Fields) (i : BitOrder → Nat → Instr) :
    (∃ j, decodeOrdN f i = .ok j) ↔ f.off = 0 := by
  unfold decodeOrdN
  split <;> simp_all

@[simp] theorem decodeOrd_legal_iff (f : Fields) (i : BitOrder → Instr) :
    (∃ j, decodeOrd f i = .ok j) ↔ f.n = 0 ∧ f.off = 0 := by
  unfold decodeOrd
  split <;> simp_all

@[simp] theorem decodeOff_legal_iff (f : Fields) (i : Nat → Instr) :
    (∃ j, decodeOff f i = .ok j) ↔ f.ord = 0 ∧ f.n = 0 := by
  unfold decodeOff
  split <;> simp_all

namespace Machine

/-- Every field the row does not read is 0: case (c) of R79 does not hold. -/
def OpRow.UnreadZero (row : OpRow) (f : Fields) : Prop :=
  (row.readsOrd = true ∨ f.ord = 0) ∧ (row.readsN = true ∨ f.n = 0) ∧ (row.readsOff = true ∨ f.off = 0)

/-- When a row admits a word, on the fields of the word. -/
theorem OpRow.admits_iff (row : OpRow) (cw : CommandWord) :
    row.admits cw = true ↔ (Fields.ofWord cw).op = row.op ∧
      ((Fields.ofWord cw).rsv1 = 0 ∧ (Fields.ofWord cw).rsv2 = 0) ∧ row.UnreadZero (Fields.ofWord cw) := by
  simp [OpRow.admits, OpRow.UnreadZero, Fields.ofWord, and_assoc]

theorem mem_opRows_iff {row : OpRow} :
    row ∈ opRows ↔ (∃ op ∈ plainOps, row = ⟨op, false, false, false⟩) ∨ (∃ op ∈ ordNOps, row = ⟨op, true, true, false⟩) ∨
      (∃ op ∈ ordOps, row = ⟨op, true, false, false⟩) ∨ ∃ op ∈ offOps, row = ⟨op, false, false, true⟩ := by
  have hrows : opRows = plainOps.map (fun op => ⟨op, false, false, false⟩) ++ ordNOps.map (fun op => ⟨op, true, true, false⟩)
      ++ ordOps.map (fun op => ⟨op, true, false, false⟩) ++ offOps.map (fun op => ⟨op, false, false, true⟩) := rfl
  simp only [hrows, List.mem_append, List.mem_map, or_assoc, eq_comm]

/-! ### The decoder and the rows -/

/-- Under an operation code of the map, legality is decided by the fields its row does not read. -/
theorem decodeOp_legal_iff_of_row {row : OpRow} {f : Fields} (hrow : row ∈ opRows) (hop : f.op = row.op) :
    (∃ i, decodeOp f = .ok i) ↔ row.UnreadZero f := by
  rcases mem_opRows_iff.mp hrow with ⟨op, hmem, rfl⟩ | ⟨op, hmem, rfl⟩ | ⟨op, hmem, rfl⟩ | ⟨op, hmem, rfl⟩ <;>
    obtain rfl : f.op = op := hop
  · obtain ⟨i, hi⟩ := decodeOp_of_mem_plainOps hmem
    simp [hi, OpRow.UnreadZero]
  · obtain ⟨i, hi⟩ := decodeOp_of_mem_ordNOps hmem
    simp [hi, OpRow.UnreadZero]
  · obtain ⟨i, hi⟩ := decodeOp_of_mem_ordOps hmem
    simp [hi, OpRow.UnreadZero]
  · obtain ⟨i, hi⟩ := decodeOp_of_mem_offOps hmem
    simp [hi, OpRow.UnreadZero]

/-- An operation code outside the map is unknown: case (a) of R79. -/
theorem decodeOp_unknown {f : Fields} (h : ∀ row ∈ opRows, row.op ≠ f.op) : decodeOp f = .error .unknownOp := by
  have hcode : ∀ row ∈ opRows, row.op.toNat ≠ f.op.toNat :=
    fun row hrow heq => h row hrow (BitVec.eq_of_toNat_eq heq)
  unfold decodeOp
  split
  case h_25 => rfl
  all_goals
    rename_i hop
    rw [hop] at hcode
    exact absurd hcode (by decide)

theorem decodeOp_legal_iff (f : Fields) :
    (∃ i, decodeOp f = .ok i) ↔ ∃ row ∈ opRows, f.op = row.op ∧ row.UnreadZero f := by
  constructor
  · intro hlegal
    by_cases hknown : ∃ row ∈ opRows, f.op = row.op
    · obtain ⟨row, hrow, hop⟩ := hknown
      exact ⟨row, hrow, hop, (decodeOp_legal_iff_of_row hrow hop).mp hlegal⟩
    · have hunknown := decodeOp_unknown fun row hrow heq => hknown ⟨row, hrow, heq.symm⟩
      simp [hunknown] at hlegal
  · rintro ⟨row, hrow, hop, hzero⟩
    exact (decodeOp_legal_iff_of_row hrow hop).mpr hzero

/-- The decoder accepts exactly the words that a row admits (R79). -/
theorem decode_legal_iff_admits (cw : CommandWord) :
    (∃ i, decode cw = .ok i) ↔ ∃ row ∈ opRows, row.admits cw = true := by
  simp only [OpRow.admits_iff]
  unfold decode decodeFields
  split <;> rename_i hrsv
  · simp only [decodeOp_legal_iff, hrsv, and_self, true_and]
  · simp only [reduceCtorEq, exists_false, hrsv, false_and, and_false]

/-! ### Match and mask -/

/-- `match` of a row: its operation code and no other field. -/
def OpRow.matchWord (row : OpRow) : CommandWord :=
  (Fields.ofOp row.op).toWord

/-- `mask` of a row: every field but those it reads. -/
def OpRow.maskFields (row : OpRow) : Fields where
  op := BitVec.allOnes 8
  ord := if row.readsOrd then 0 else BitVec.allOnes 1
  rsv1 := BitVec.allOnes 1
  n := if row.readsN then 0 else BitVec.allOnes 6
  rsv2 := BitVec.allOnes 16
  off := if row.readsOff then 0 else BitVec.allOnes 32

theorem matchMasks_eq : matchMasks = opRows.map fun row => (row.matchWord, row.maskFields.toWord) := by
  decide

end Machine

/-- The bitwise AND of two sets of fields, field by field. -/
def Fields.and (f g : Fields) : Fields where
  op := f.op &&& g.op
  ord := f.ord &&& g.ord
  rsv1 := f.rsv1 &&& g.rsv1
  n := f.n &&& g.n
  rsv2 := f.rsv2 &&& g.rsv2
  off := f.off &&& g.off

theorem Fields.toWord_and (f g : Fields) : (f.and g).toWord = f.toWord &&& g.toWord := by
  simp only [Fields.toWord, Fields.and, ← BitVec.and_append]

theorem Fields.toWord_inj {f g : Fields} : f.toWord = g.toWord ↔ f = g :=
  (Function.LeftInverse.injective Fields.ofWord_toWord).eq_iff

/-- A field under the mask is 0 exactly when it is read, and so not in the mask, or 0. -/
theorem and_ite_eq_zero_iff {w : Nat} (reads : Bool) (x : BitVec w) :
    x &&& (if reads then 0 else BitVec.allOnes w) = 0 ↔ reads = true ∨ x = 0 := by
  cases reads <;> simp

namespace Machine

/-- A row admits a word exactly when the word agrees with the row's match under its mask. -/
theorem OpRow.admits_iff_masked (row : OpRow) (cw : CommandWord) :
    row.admits cw = true ↔ cw &&& row.maskFields.toWord = row.matchWord := by
  have hmasked : cw &&& row.maskFields.toWord = ((Fields.ofWord cw).and row.maskFields).toWord := by
    rw [Fields.toWord_and, Fields.toWord_ofWord]
  rw [hmasked, OpRow.matchWord, Fields.toWord_inj, OpRow.admits_iff]
  simp only [Fields.and, OpRow.maskFields, Fields.ofOp, Fields.mk.injEq, BitVec.and_allOnes, and_ite_eq_zero_iff,
    OpRow.UnreadZero]
  tauto

theorem decode_legal_iff_matchMasks (cw : CommandWord) :
    (∃ i, decode cw = .ok i) ↔ ∃ row ∈ matchMasks, cw &&& row.2 = row.1 := by
  simp [decode_legal_iff_admits, matchMasks_eq, OpRow.admits_iff_masked]

/-- A word that no row admits is answered ILLEGAL_COMMAND, and nothing else changes (R212). -/
theorem step_of_not_admitted {s : State} {req : Request} {rest : List Request} (h : s.pending = req :: rest)
    (hillegal : ¬ ∃ row ∈ opRows, row.admits req.cw = true) :
    step s = .next (s.answer req rest (.raise .illegalCommand)) := by
  cases hd : decode req.cw with
  | ok i => exact absurd ((decode_legal_iff_admits req.cw).mp ⟨i, hd⟩) hillegal
  | error e => exact step_illegal h hd

/-- Settles O4: the decoder read row by row, and `mask` as the fields a row does not read. -/
theorem illegalCommandWords : Obligations.IllegalCommandWords :=
  ⟨decode_legal_iff_admits, decode_legal_iff_matchMasks, fun _ _ _ => step_of_not_admitted⟩

end Machine

/-! ### The words of assembled lines -/

theorem BitOrder.toBit_eq_ite (o : BitOrder) : o.toBit = if o = .lsbFirst then 1#1 else 0#1 := by
  cases o <;> rfl

theorem Fields.toWord_ofOp (op : BitVec 8) : (Fields.ofOp op).toWord = op ++ 0#56 := by
  apply BitVec.eq_of_toNat_eq
  rw [Fields.toNat_toWord, toNat_append_eq]
  simp only [Fields.ofOp, BitVec.ofNat_eq_ofNat, BitVec.toNat_ofNat]
  omega

namespace Machine

theorem assemble_of_wellFormed {l : Line} (h : l.instr.wellFormed = true) : assemble l = some (encode l.instr) :=
  if_pos h

/-- A line whose fields fit exactly when `p` holds is assembled then, and rejected otherwise. -/
theorem assemble_eq_ite {l : Line} {p : Prop} [Decidable p] (h : l.instr.wellFormed = true ↔ p) :
    assemble l = if p then some (encode l.instr) else none := by
  simp only [assemble, h]

/-- The assembler's test that a value fits a field, as its limit is written in R83. -/
theorem fits_field_iff (w k : Nat) : decide (k < 2 ^ w) = true ↔ k ≤ 2 ^ w - 1 :=
  decide_eq_true_iff.trans (Nat.lt_iff_le_pred (Nat.two_pow_pos w))

/-- A line of an operation that reads no field assembles to its operation code and 56 zero bits. -/
theorem assemble_plain {l : Line} {op : BitVec 8} (hwf : l.instr.wellFormed = true) (hf : l.instr.fields = Fields.ofOp op) :
    assemble l = some (op ++ 0#56) := by
  rw [assemble_of_wellFormed hwf, encode, hf, Fields.toWord_ofOp]

/-- Settles O56: by the fields each operation reads. -/
theorem assembledWord : Obligations.AssembledWord := by
  intro src dst
  refine ⟨fun o n => ?_, fun o => ?_, fun off => ?_, fun e he => ?_⟩
  · rw [← BitOrder.toBit_eq_ite]
    exact ⟨assemble_eq_ite (fits_field_iff 6 n), assemble_eq_ite (fits_field_iff 6 n)⟩
  · rw [← BitOrder.toBit_eq_ite]
    exact ⟨assemble_of_wellFormed rfl, assemble_of_wellFormed rfl⟩
  · exact ⟨assemble_eq_ite (fits_field_iff 32 off), assemble_eq_ite (fits_field_iff 32 off)⟩
  · fin_cases he <;> exact assemble_plain rfl rfl

end Machine

end Sys2Proof
end

/-! PROOFS. The fixed-width codec: each ENC operation gives the big-endian bytes of its words, each DEC operation the words
those bytes make (40_fixed_width.md R103 to R114). The layouts are read off once per width, not once per operation. -/

namespace Sys2Proof.Machine

/-! ### Words to bytes (R103) -/

/-- Words encode by any layout that lists the big-endian bytes of each of them. -/
theorem encodeWords_eq_flatMap {w : Nat} {layout : BitVec w → List Byte} (h : ∀ v, bigEndianBytes v = layout v)
    (ws : List (BitVec w)) : encodeWords ws = ws.flatMap layout :=
  congrArg ws.flatMap (funext h)

theorem encodeWords_w16 (ws : List W16) :
    encodeWords ws = ws.flatMap fun w => [w.extractLsb' 8 8, w.extractLsb' 0 8] :=
  encodeWords_eq_flatMap (fun _ => rfl) ws

theorem encodeWords_w32 (ws : List W32) :
    encodeWords ws =
      ws.flatMap fun w => [w.extractLsb' 24 8, w.extractLsb' 16 8, w.extractLsb' 8 8, w.extractLsb' 0 8] :=
  encodeWords_eq_flatMap (fun _ => rfl) ws

theorem encodeWords_w64 (ws : List W64) :
    encodeWords ws = ws.flatMap fun w =>
      [w.extractLsb' 56 8, w.extractLsb' 48 8, w.extractLsb' 40 8, w.extractLsb' 32 8,
        w.extractLsb' 24 8, w.extractLsb' 16 8, w.extractLsb' 8 8, w.extractLsb' 0 8] :=
  encodeWords_eq_flatMap (fun _ => rfl) ws

/-! ### A big-endian number is the concatenation of its bytes -/

@[simp] theorem bigEndianWord_singleton (b : Byte) : bigEndianWord 8 [b] = b := by
  simp [bigEndianWord]

/-- One more byte at the end stands below the bytes before it. -/
theorem bigEndianWord_snoc {w : Nat} {bs : List Byte} {v : BitVec w} (h : bigEndianWord w bs = v) (b : Byte) :
    bigEndianWord (w + 8) (bs ++ [b]) = v ++ b := by
  subst h
  apply BitVec.eq_of_toNat_eq
  simp only [bigEndianWord, List.foldl_append, List.foldl_cons, List.foldl_nil, toNat_append_eq, BitVec.toNat_ofNat]
  generalize bs.foldl (fun acc b => acc * 256 + b.toNat) 0 = high
  have hb : b.toNat < 2 ^ 8 := b.isLt
  calc (high * 256 + b.toNat) % 2 ^ (w + 8)
    _ = (2 ^ 8 * high + b.toNat) % (2 ^ 8 * 2 ^ w) := by
      rw [Nat.pow_add, Nat.mul_comm (2 ^ w), Nat.mul_comm high, show 256 = 2 ^ 8 from rfl]
    _ = 2 ^ 8 * (high % 2 ^ w) + b.toNat := by
      rw [Nat.mod_mul, Nat.mul_add_mod, Nat.mod_eq_of_lt hb, Nat.mul_add_div (by decide), Nat.div_eq_of_lt hb,
        Nat.add_zero, Nat.add_comm]
    _ = high % 2 ^ w * 2 ^ 8 + b.toNat := by rw [Nat.mul_comm]

theorem bigEndianWord_two (b0 b1 : Byte) : bigEndianWord 16 [b0, b1] = b0 ++ b1 :=
  bigEndianWord_snoc (bigEndianWord_singleton b0) b1

theorem bigEndianWord_four (b0 b1 b2 b3 : Byte) : bigEndianWord 32 [b0, b1, b2, b3] = b0 ++ b1 ++ b2 ++ b3 :=
  bigEndianWord_snoc (bigEndianWord_snoc (bigEndianWord_two b0 b1) b2) b3

theorem bigEndianWord_eight (b0 b1 b2 b3 b4 b5 b6 b7 : Byte) :
    bigEndianWord 64 [b0, b1, b2, b3, b4, b5, b6, b7] = b0 ++ b1 ++ b2 ++ b3 ++ b4 ++ b5 ++ b6 ++ b7 :=
  have six := bigEndianWord_snoc (bigEndianWord_snoc (bigEndianWord_four b0 b1 b2 b3) b4) b5
  bigEndianWord_snoc (bigEndianWord_snoc six b6) b7

/-! ### Bytes to words (R104) -/

/-- The word at index `i` is made of the `w / 8` bytes from index `w / 8 * i` on. -/
theorem takeWords_eq_map_range (w n : Nat) (bs : List Byte) :
    takeWords w n bs = (List.range n).map fun i => bigEndianWord w ((bs.drop (w / 8 * i)).take (w / 8)) := by
  induction n generalizing bs with
  | zero => rfl
  | succ n ih => simp [takeWords, ih, List.range_succ_eq_map, Nat.mul_add, Nat.add_comm, Function.comp_def]

/-- A block of bytes that lies within the sequence, byte by byte. -/
theorem take_drop_eq_map_range {bs : List Byte} {a k : Nat} (h : a + k ≤ bs.length) :
    (bs.drop a).take k = (List.range k).map fun j => bs.getD (a + j) 0 := by
  apply List.ext_getElem
  · simp only [List.length_take, List.length_drop, List.length_map, List.length_range]
    omega
  · intro j hj _
    have hlt : a + j < bs.length := by
      simp only [List.length_take, List.length_drop] at hj
      omega
    simp [hlt]

/-- Bytes decode by any layout that gives the big-endian number of each complete block of `w / 8` bytes. The blocks
counted lie within the sequence, so the bytes of a last incomplete block are in none of them. -/
theorem decodeWords_eq_map_range {w : Nat} {bs : List Byte} {layout : Nat → BitVec w}
    (h : ∀ i, bigEndianWord w ((List.range (w / 8)).map fun j => bs.getD (w / 8 * i + j) 0) = layout i) :
    decodeWords w bs = (List.range (bs.length / (w / 8))).map layout := by
  rw [decodeWords, takeWords_eq_map_range]
  refine List.map_congr_left fun i hi => ?_
  have hblock : w / 8 * i + w / 8 ≤ bs.length :=
    calc w / 8 * (i + 1)
      _ ≤ w / 8 * (bs.length / (w / 8)) := Nat.mul_le_mul_left _ (List.mem_range.mp hi)
      _ ≤ bs.length := Nat.mul_div_le _ _
  rw [take_drop_eq_map_range hblock, h]

theorem decodeWords_w16 (bs : List Byte) :
    decodeWords 16 bs = (List.range (bs.length / 2)).map fun i => bs.getD (2 * i) 0 ++ bs.getD (2 * i + 1) 0 :=
  decodeWords_eq_map_range fun _ => bigEndianWord_two _ _

theorem decodeWords_w32 (bs : List Byte) :
    decodeWords 32 bs = (List.range (bs.length / 4)).map fun i =>
      bs.getD (4 * i) 0 ++ bs.getD (4 * i + 1) 0 ++ bs.getD (4 * i + 2) 0 ++ bs.getD (4 * i + 3) 0 :=
  decodeWords_eq_map_range fun _ => bigEndianWord_four _ _ _ _

theorem decodeWords_w64 (bs : List Byte) :
    decodeWords 64 bs = (List.range (bs.length / 8)).map fun i =>
      bs.getD (8 * i) 0 ++ bs.getD (8 * i + 1) 0 ++ bs.getD (8 * i + 2) 0 ++ bs.getD (8 * i + 3) 0
        ++ bs.getD (8 * i + 4) 0 ++ bs.getD (8 * i + 5) 0 ++ bs.getD (8 * i + 6) 0 ++ bs.getD (8 * i + 7) 0 :=
  decodeWords_eq_map_range fun _ => bigEndianWord_eight _ _ _ _ _ _ _ _

/-! ### One transaction of each operation -/

section Transactions

variable {s : State} {req : Request} {rest : List Request}

theorem exec_encI16_eq {ws : List W16} (hp : s.pending = req :: rest) (hs : req.Supplies .w16s ws) :
    exec .encI16 s = .next (s.answer req rest (.complete (.bytes (encodeWords ws)))) :=
  transact_eq hp hs.asW16s _

theorem exec_encI32_eq {ws : List W32} (hp : s.pending = req :: rest) (hs : req.Supplies .w32s ws) :
    exec .encI32 s = .next (s.answer req rest (.complete (.bytes (encodeWords ws)))) :=
  transact_eq hp hs.asW32s _

theorem exec_encI64_eq {ws : List W64} (hp : s.pending = req :: rest) (hs : req.Supplies .w64s ws) :
    exec .encI64 s = .next (s.answer req rest (.complete (.bytes (encodeWords ws)))) :=
  transact_eq hp hs.asW64s _

/-- ENC.F32 runs the function of ENC.I32 (R108). -/
theorem exec_encF32 (s : State) : exec .encF32 s = exec .encI32 s := rfl

/-- ENC.F64 runs the function of ENC.I64 (R109). -/
theorem exec_encF64 (s : State) : exec .encF64 s = exec .encI64 s := rfl

theorem exec_decI16_eq {bs : List Byte} (hp : s.pending = req :: rest) (hs : req.Supplies .bytes bs) :
    exec .decI16 s = .next (s.answer req rest (.complete (.w16s (decodeWords 16 bs)))) :=
  transact_eq hp hs.asBytes _

theorem exec_decI32_eq {bs : List Byte} (hp : s.pending = req :: rest) (hs : req.Supplies .bytes bs) :
    exec .decI32 s = .next (s.answer req rest (.complete (.w32s (decodeWords 32 bs)))) :=
  transact_eq hp hs.asBytes _

theorem exec_decI64_eq {bs : List Byte} (hp : s.pending = req :: rest) (hs : req.Supplies .bytes bs) :
    exec .decI64 s = .next (s.answer req rest (.complete (.w64s (decodeWords 64 bs)))) :=
  transact_eq hp hs.asBytes _

/-- DEC.F32 runs the function of DEC.I32 (R113). -/
theorem exec_decF32 (s : State) : exec .decF32 s = exec .decI32 s := rfl

/-- DEC.F64 runs the function of DEC.I64 (R114). -/
theorem exec_decF64 (s : State) : exec .decF64 s = exec .decI64 s := rfl

end Transactions

/-! ### The statements -/

/-- Settles O22, by the bytes of a 16-bit word. -/
theorem encI16BigEndian : Obligations.EncI16BigEndian := by
  refine ⟨by decide, fun s req rest ws hp hs => ?_⟩
  rw [exec_encI16_eq hp hs, encodeWords_w16]

/-- Settles O23, by the bytes of a 32-bit word. -/
theorem encI32BigEndian : Obligations.EncI32BigEndian := by
  refine ⟨by decide, fun s req rest ws hp hs => ?_⟩
  rw [exec_encI32_eq hp hs, encodeWords_w32]

/-- Settles O24, by the bytes of a 64-bit word. -/
theorem encI64BigEndian : Obligations.EncI64BigEndian := by
  refine ⟨by decide, fun s req rest ws hp hs => ?_⟩
  rw [exec_encI64_eq hp hs, encodeWords_w64]

/-- Settles O25: ENC.F32 is ENC.I32 under its own word. -/
theorem encF32BigEndian : Obligations.EncF32BigEndian :=
  ⟨by decide, fun s req rest ws hp hs => (exec_encF32 s).trans (encI32BigEndian.2 s req rest ws hp hs)⟩

/-- Settles O26: ENC.F64 is ENC.I64 under its own word. -/
theorem encF64BigEndian : Obligations.EncF64BigEndian :=
  ⟨by decide, fun s req rest ws hp hs => (exec_encF64 s).trans (encI64BigEndian.2 s req rest ws hp hs)⟩

/-- Settles O27, by the 16-bit words that complete blocks of bytes make. -/
theorem decI16BigEndian : Obligations.DecI16BigEndian := by
  refine ⟨by decide, fun s req rest bs hp hs => ?_⟩
  rw [exec_decI16_eq hp hs, decodeWords_w16]

/-- Settles O28, by the 32-bit words that complete blocks of bytes make. -/
theorem decI32BigEndian : Obligations.DecI32BigEndian := by
  refine ⟨by decide, fun s req rest bs hp hs => ?_⟩
  rw [exec_decI32_eq hp hs, decodeWords_w32]

/-- Settles O29, by the 64-bit words that complete blocks of bytes make. -/
theorem decI64BigEndian : Obligations.DecI64BigEndian := by
  refine ⟨by decide, fun s req rest bs hp hs => ?_⟩
  rw [exec_decI64_eq hp hs, decodeWords_w64]

/-- Settles O30: DEC.F32 is DEC.I32 under its own word. -/
theorem decF32BigEndian : Obligations.DecF32BigEndian :=
  ⟨by decide, fun s req rest bs hp hs => (exec_decF32 s).trans (decI32BigEndian.2 s req rest bs hp hs)⟩

/-- Settles O31: DEC.F64 is DEC.I64 under its own word. -/
theorem decF64BigEndian : Obligations.DecF64BigEndian :=
  ⟨by decide, fun s req rest bs hp hs => (exec_decF64 s).trans (decI64BigEndian.2 s req rest bs hp hs)⟩

end Sys2Proof.Machine

/-! PROOFS. The bit-vector codec: B2V lists the low bits of a pattern, V2B sums the weights of the set bits, both in either
order (41_bit_vector.md R131 to R134, R137). Layouts and weights are read off once, at every width and every length. -/

namespace Sys2Proof

/-! ### The command words (30_encoding.md R70, R76) -/

/-- A word written as a concatenation of fields decodes by those fields. -/
theorem decode_toWord (f : Fields) : decode f.toWord = decodeFields f := by
  rw [decode, Fields.ofWord_toWord]

/-- The fields of an operation that reads `ORD` and `N`, the others 0. -/
def Fields.ofOrdN (op : BitVec 8) (o : BitVec 1) (n : BitVec 6) : Fields :=
  { Fields.ofOp op with ord := o, n := n }

theorem decode_b2vB (o : BitVec 1) (n : BitVec 6) :
    decode (Fields.ofOrdN 0x10 o n).toWord = .ok (.b2vB (BitOrder.ofBit o) n.toNat) := decode_toWord _

theorem decode_b2vW (o : BitVec 1) (n : BitVec 6) :
    decode (Fields.ofOrdN 0x11 o n).toWord = .ok (.b2vW (BitOrder.ofBit o) n.toNat) := decode_toWord _

theorem decode_v2bB (o : BitVec 1) : decode (Fields.ofOrdN 0x18 o 0).toWord = .ok (.v2bB (BitOrder.ofBit o)) :=
  decode_toWord _

theorem decode_v2bW (o : BitVec 1) : decode (Fields.ofOrdN 0x19 o 0).toWord = .ok (.v2bW (BitOrder.ofBit o)) :=
  decode_toWord _

namespace Machine

/-! ### Patterns to bits (R131, R132) -/

theorem bitsOf_lsbFirst (n : Nat) {w : Nat} (v : BitVec w) :
    bitsOf .lsbFirst n v = (List.range n).map fun k => v.getLsbD k := rfl

theorem bitsOf_msbFirst (n : Nat) {w : Nat} (v : BitVec w) :
    bitsOf .msbFirst n v = (List.range n).map fun i => v.getLsbD (n - 1 - i) := rfl

theorem toBits_singleton (ord : BitOrder) {n w : Nat} (v : BitVec w) (h1 : 1 ≤ n) (hw : n ≤ w) :
    toBits ord n [v] = .complete (.bits (bitsOf ord n v)) :=
  if_neg (by omega)

theorem toBits_badLength (ord : BitOrder) {n w : Nat} {xs : List (BitVec w)} (h : xs.length ≠ 1 ∨ n < 1 ∨ n > w) :
    toBits ord n xs = .raise .badLength := by
  match xs with
  | [] => rfl
  | [v] => exact if_pos (h.resolve_left (not_not_intro rfl))
  | _ :: _ :: _ => rfl

/-! ### Bits to patterns (R133, R134) -/

theorem fromBits_value (ord : BitOrder) {w : Nat} (out : List (BitVec w) → Items) {v : List Bit} (h1 : 1 ≤ v.length)
    (hw : v.length ≤ w) : fromBits ord w out v = .complete (out [BitVec.ofNat w (natOfBits ord v)]) :=
  if_neg (by omega)

theorem fromBits_badLength (ord : BitOrder) {w : Nat} (out : List (BitVec w) → Items) {v : List Bit}
    (h : v.length < 1 ∨ v.length > w) : fromBits ord w out v = .raise .badLength :=
  if_pos h

/-- The bit at index `i` contributes `2 ^ i` (R137, LSB_FIRST). -/
theorem natOfBits_lsbFirst (v : List Bit) :
    natOfBits .lsbFirst v = ((List.range v.length).map fun i => if v.getD i false then 2 ^ i else 0).sum := by
  change natOfBitsLsb v = _
  induction v with
  | nil => rfl
  | cons b bs ih =>
    have htail : ((List.range bs.length).map fun i => if bs.getD i false then 2 ^ (i + 1) else 0).sum
        = 2 * natOfBitsLsb bs := by
      rw [ih, ← List.sum_map_mul_left]
      simp only [mul_ite, mul_zero, Nat.pow_succ']
    simp only [natOfBitsLsb, List.length_cons, List.range_succ_eq_map, List.map_cons, List.map_map, List.sum_cons,
      Function.comp_def, Nat.succ_eq_add_one, List.getD_cons_succ, List.getD_cons_zero, htail, pow_zero]
    cases b <;> rfl

/-- A sum over the indices of a vector is the same sum with the indices counted from the other end. -/
theorem sum_map_range_reflect (f : Nat → Nat) (n : Nat) :
    ((List.range n).map fun i => f (n - 1 - i)).sum = ((List.range n).map f).sum :=
  Finset.sum_range_reflect f n

/-- The bit at index `i` contributes `2 ^ (L - 1 - i)` (R137, MSB_FIRST): index `i` is the index `L - 1 - i` of the
reversed vector, whose value is read LSB_FIRST. -/
theorem natOfBits_msbFirst (v : List Bit) :
    natOfBits .msbFirst v
      = ((List.range v.length).map fun i => if v.getD i false then 2 ^ (v.length - 1 - i) else 0).sum := by
  change natOfBits .lsbFirst v.reverse = _
  rw [natOfBits_lsbFirst, List.length_reverse, ← sum_map_range_reflect]
  refine congrArg List.sum (List.map_congr_left fun i hi => ?_)
  have hi : i < v.length := List.mem_range.mp hi
  have hj : v.length - 1 - i < v.length := by omega
  have hback : v.length - 1 - (v.length - 1 - i) = i := by omega
  simp [List.getD_eq_getElem?_getD, List.getElem?_reverse hj, hback]

/-! ### One transaction of each operation -/

section Transactions

variable {s : State} {req : Request} {rest : List Request}

theorem exec_b2vB_eq {bs : List Byte} (hp : s.pending = req :: rest) (hs : req.Supplies .bytes bs) (ord : BitOrder)
    (n : Nat) : exec (.b2vB ord n) s = .next (s.answer req rest (toBits ord n bs)) :=
  transact_eq hp hs.asBytes _

theorem exec_b2vW_eq {ws : List W32} (hp : s.pending = req :: rest) (hs : req.Supplies .w32s ws) (ord : BitOrder)
    (n : Nat) : exec (.b2vW ord n) s = .next (s.answer req rest (toBits ord n ws)) :=
  transact_eq hp hs.asW32s _

theorem exec_v2bB_eq {v : List Bit} (hp : s.pending = req :: rest) (hs : req.Supplies .bits v) (ord : BitOrder) :
    exec (.v2bB ord) s = .next (s.answer req rest (fromBits ord 8 .bytes v)) :=
  transact_eq hp hs.asBits _

theorem exec_v2bW_eq {v : List Bit} (hp : s.pending = req :: rest) (hs : req.Supplies .bits v) (ord : BitOrder) :
    exec (.v2bW ord) s = .next (s.answer req rest (fromBits ord 32 .w32s v)) :=
  transact_eq hp hs.asBits _

end Transactions

/-! ### The statements -/

/-- Settles O36, by the weights of the bits in each order. -/
theorem v2bBitsToByte : Obligations.V2bBitsToByte := by
  refine ⟨decode_v2bB, fun s req rest v hp hs => ⟨fun h1 h8 => ⟨?_, ?_⟩, fun hbad ord => ?_⟩⟩
  · rw [exec_v2bB_eq hp hs, fromBits_value _ _ h1 h8, natOfBits_lsbFirst]
  · rw [exec_v2bB_eq hp hs, fromBits_value _ _ h1 h8, natOfBits_msbFirst]
  · rw [exec_v2bB_eq hp hs, fromBits_badLength _ _ hbad]

/-- Settles O37, by the weights of the bits in each order. -/
theorem v2bBitsToWord : Obligations.V2bBitsToWord := by
  refine ⟨decode_v2bW, fun s req rest v hp hs => ⟨fun h1 h32 => ⟨?_, ?_⟩, fun hbad ord => ?_⟩⟩
  · rw [exec_v2bW_eq hp hs, fromBits_value _ _ h1 h32, natOfBits_lsbFirst]
  · rw [exec_v2bW_eq hp hs, fromBits_value _ _ h1 h32, natOfBits_msbFirst]
  · rw [exec_v2bW_eq hp hs, fromBits_badLength _ _ hbad]

/-- Settles O34, by the layout of the bits in each order. -/
theorem b2vByteToBits : Obligations.B2vByteToBits := by
  refine ⟨decode_b2vB, fun s req rest bs n hp hs => ⟨?_, fun hbad ord => ?_⟩⟩
  · rintro b rfl h1 h8
    constructor
    · rw [exec_b2vB_eq hp hs, toBits_singleton _ _ h1 h8, bitsOf_lsbFirst]
    · rw [exec_b2vB_eq hp hs, toBits_singleton _ _ h1 h8, bitsOf_msbFirst]
  · rw [exec_b2vB_eq hp hs, toBits_badLength _ hbad]

/-- Settles O35, by the layout of the bits in each order. -/
theorem b2vWordToBits : Obligations.B2vWordToBits := by
  refine ⟨decode_b2vW, fun s req rest ws n hp hs => ⟨?_, fun hbad ord => ?_⟩⟩
  · rintro w rfl h1 h32
    constructor
    · rw [exec_b2vW_eq hp hs, toBits_singleton _ _ h1 h32, bitsOf_lsbFirst]
    · rw [exec_b2vW_eq hp hs, toBits_singleton _ _ h1 h32, bitsOf_msbFirst]
  · rw [exec_b2vW_eq hp hs, toBits_badLength _ hbad]

end Machine

end Sys2Proof

/-! PROOFS. The legacy formats: PDP-11 middle-endian words, VAX doubles and Radix-50 codes (42_legacy_format.md R152 to R176).
The fields of a floating pattern are read off its concatenation once, the value of a character slot is tied to the table of
R174 once, and each operation's result is an equation of its own before a transaction answers with it. -/

namespace Sys2Proof

/-! ### The command words (30_encoding.md R70, R76) -/

/-- The word of an operation that reads `OFF` alone: its operation code, 24 zero bits and the offset. -/
theorem Fields.toWord_ofOff (op : BitVec 8) (off : BitVec 32) :
    Fields.toWord { Fields.ofOp op with off := off } = op ++ 0#24 ++ off := by
  apply BitVec.eq_of_toNat_eq
  rw [Fields.toNat_toWord, toNat_append_eq, toNat_append_eq]
  simp only [Fields.ofOp, BitVec.ofNat_eq_ofNat, BitVec.toNat_ofNat]
  omega

theorem decode_midDec (off : BitVec 32) : decode (0x28#8 ++ 0#24 ++ off) = .ok (.midDec off.toNat) := by
  rw [← Fields.toWord_ofOff, decode_toWord]
  rfl

theorem decode_vaxdDec (off : BitVec 32) : decode (0x29#8 ++ 0#24 ++ off) = .ok (.vaxdDec off.toNat) := by
  rw [← Fields.toWord_ofOff, decode_toWord]
  rfl

/-! ### The parts of a pattern -/

section Parts

variable {a b c : Nat} (x : BitVec a) (y : BitVec b) (z : BitVec c)

theorem extractLsb'_append₃_high : (x ++ y ++ z).extractLsb' (b + c) a = x := by
  rw [BitVec.extractLsb'_append_eq_of_le (Nat.le_add_left c b), Nat.add_sub_cancel, BitVec.extractLsb'_append_eq_left]

theorem extractLsb'_append₃_middle : (x ++ y ++ z).extractLsb' c b = y := by
  rw [BitVec.extractLsb'_append_eq_of_le le_rfl, Nat.sub_self, BitVec.extractLsb'_append_eq_right]

theorem extractLsb'_append₃_low : (x ++ y ++ z).extractLsb' 0 c = z :=
  BitVec.extractLsb'_append_eq_right

end Parts

/-- A part of a part is a part of the whole, at the sum of the two positions. -/
theorem extractLsb'_extractLsb' {w m n i j : Nat} (x : BitVec w) (h : i + m ≤ n) :
    (x.extractLsb' j n).extractLsb' i m = x.extractLsb' (j + i) m := by
  ext k hk
  have hin : i + k < n := by omega
  simp [hin, Nat.add_assoc]

namespace Machine

/-! ### Operations on one item (60_exceptions.md R213) -/

@[simp] theorem onScalar_singleton {α : Type} (op : α → Result) (x : α) : onScalar op [x] = op x := rfl

theorem onScalar_badLength {α : Type} (op : α → Result) {xs : List α} (h : xs.length ≠ 1) :
    onScalar op xs = .raise .badLength := by
  match xs with
  | [] => rfl
  | [_] => exact absurd rfl h
  | _ :: _ :: _ => rfl

/-! ### Middle-endian words (R151 to R153) -/

/-- The word is the big-endian word of the bytes with each half's two bytes exchanged. -/
theorem middleEndianWord_eq_append (b0 b1 b2 b3 : Byte) : middleEndianWord b0 b1 b2 b3 = b1 ++ b0 ++ b3 ++ b2 := by
  rw [← bigEndianWord_four, middleEndianWord, bigEndianWord]
  congr 1
  simp only [List.foldl_cons, List.foldl_nil]
  ring

theorem midDecode_word {bs : List Byte} {off : Nat} (h : off + 4 ≤ bs.length) :
    midDecode off bs = .complete (.w32s
      [bs.getD (off + 1) 0 ++ bs.getD off 0 ++ bs.getD (off + 3) 0 ++ bs.getD (off + 2) 0]) := by
  rw [midDecode, if_neg (Nat.not_lt.mpr h), middleEndianWord_eq_append]
  rfl

theorem midDecode_outOfRange {bs : List Byte} {off : Nat} (h : off + 4 > bs.length) :
    midDecode off bs = .raise .outOfRange :=
  if_pos h

/-! ### VAX byte order (R161) -/

/-- With the default order of the halves, the bytes of a VAX pattern stand as R161 lists them. -/
theorem vaxBytes_eq_vaxLayout (V : W64) : vaxBytes Config.vaxHalfOrder V = vaxLayout V := by
  change middleEndianBytes (V.extractLsb' 32 32) ++ middleEndianBytes (V.extractLsb' 0 32) = _
  simp [middleEndianBytes, vaxLayout, extractLsb'_extractLsb']

/-- With the default order of the halves, the VAX pattern at an offset is the eight bytes there, exchanged in pairs. -/
theorem vaxWord_eq_append (bs : List Byte) (off : Nat) :
    vaxWord Config.vaxHalfOrder bs off =
      bs.getD (off + 1) 0 ++ bs.getD off 0 ++ bs.getD (off + 3) 0 ++ bs.getD (off + 2) 0
        ++ bs.getD (off + 5) 0 ++ bs.getD (off + 4) 0 ++ bs.getD (off + 7) 0 ++ bs.getD (off + 6) 0 := by
  simp only [vaxWord, Config.vaxHalfOrder, middleEndianWord_eq_append, byteAt]
  apply BitVec.eq_of_toNat_eq
  simp only [toNat_append_eq]
  ring

/-! ### VAX patterns and binary64 patterns (R163 to R168) -/

/-- The VAX pattern of a binary64 pattern on its fields (R165): the re-biased exponent E - 894 is compared in the integers, and
where it is kept it is a natural number. -/
theorem vaxOfIeee_append (S : BitVec 1) (E : BitVec 11) (F : BitVec 52) :
    vaxOfIeee (S ++ E ++ F) =
      if E.toNat ≥ 1150 then S ++ BitVec.allOnes 63
      else if E.toNat < 894 ∨ (E.toNat = 894 ∧ S = 0#1) then 0#64
      else S ++ BitVec.ofNat 8 (E.toNat - 894) ++ F ++ 0#3 := by
  have hS : (S ++ E ++ F).extractLsb' 63 1 = S := extractLsb'_append₃_high S E F
  have hE : (S ++ E ++ F).extractLsb' 52 11 = E := extractLsb'_append₃_middle S E F
  have hF : (S ++ E ++ F).extractLsb' 0 52 = F := extractLsb'_append₃_low S E F
  have hsat : (E.toNat : Int) - 1023 + 129 > 255 ↔ E.toNat ≥ 1150 := by omega
  have hneg : (E.toNat : Int) - 1023 + 129 < 0 ↔ E.toNat < 894 := by omega
  have hzero : (E.toNat : Int) - 1023 + 129 = 0 ↔ E.toNat = 894 := by omega
  simp only [vaxOfIeee, hS, hE, hF, hsat, hneg, hzero]
  split_ifs with hbig hsmall
  · rfl
  · rfl
  · have hexp : (E.toNat : Int) - 1023 + 129 = (E.toNat - 894 : Nat) := by omega
    rw [hexp, BitVec.ofInt_natCast]

/-- The binary64 pattern of a VAX pattern on its fields (R163). -/
theorem ieeeOfVax_append (S : BitVec 1) (e : BitVec 8) (f : BitVec 55) :
    ieeeOfVax (S ++ e ++ f) =
      S ++ (if e = 0#8 then 0#11 else BitVec.ofNat 11 (e.toNat + 894))
        ++ (f.extractLsb' 3 52 ||| (if f.extractLsb' 0 3 = 0#3 then 0#52 else 1#52)) := by
  have hS : (S ++ e ++ f).extractLsb' 63 1 = S := extractLsb'_append₃_high S e f
  have he : (S ++ e ++ f).extractLsb' 55 8 = e := extractLsb'_append₃_middle S e f
  have hf : (S ++ e ++ f).extractLsb' 0 55 = f := extractLsb'_append₃_low S e f
  have hexp : (e.toNat : Int) - 129 + 1023 = (e.toNat + 894 : Nat) := by omega
  simp only [ieeeOfVax, hS, he, hf, hexp, BitVec.ofInt_natCast, ne_eq, ite_not, BitVec.ofNat_eq_ofNat]

theorem vaxEncode_eq (X : W64) : vaxEncode X = .complete (.bytes (vaxLayout (vaxOfIeee X))) := by
  rw [vaxEncode, vaxBytes_eq_vaxLayout]

theorem vaxDecode_pattern {bs : List Byte} {off : Nat} (h : off + 8 ≤ bs.length) :
    vaxDecode off bs = .complete (.w64s [ieeeOfVax (vaxWord Config.vaxHalfOrder bs off)]) :=
  if_neg (Nat.not_lt.mpr h)

theorem vaxDecode_outOfRange {bs : List Byte} {off : Nat} (h : off + 8 > bs.length) :
    vaxDecode off bs = .raise .outOfRange :=
  if_pos h

/-! ### Radix-50 (R170 to R176) -/

/-- The value function is the table of R174. -/
theorem r50Value_eq_some_iff {c : CharCode} {v : Nat} : r50Value c = some v ↔ R50Symbol c v := by
  simp only [r50Value, R50Symbol]
  split_ifs
  case neg => exact iff_of_false id (by omega)
  all_goals
    rw [Option.some.injEq]
    omega

theorem r50SlotValue_eq_some_iff {cs : List CharCode} {i v : Nat} : r50SlotValue cs i = some v ↔ R50Slot cs i v := by
  unfold r50SlotValue R50Slot
  cases cs[i]? with
  | none => simp [eq_comm]
  | some c => simp [r50Value_eq_some_iff]

theorem R50Symbol.lt_forty {c : CharCode} {v : Nat} (h : R50Symbol c v) : v < 40 := by
  unfold R50Symbol at h
  omega

theorem R50Slot.lt_forty {cs : List CharCode} {i v : Nat} (h : R50Slot cs i v) : v < 40 := by
  rcases h with ⟨c, -, hc⟩ | ⟨-, rfl⟩
  · exact hc.lt_forty
  · decide

theorem r50Encode_code {cs : List CharCode} {v0 v1 v2 : Nat} (h0 : R50Slot cs 0 v0) (h1 : R50Slot cs 1 v1)
    (h2 : R50Slot cs 2 v2) :
    r50Encode cs = .complete (.w16s [BitVec.ofNat 16 (v0 * 1600 + v1 * 40 + v2)]) := by
  have hslots : r50Slots cs = some [v0, v1, v2] := by
    simp [r50Slots, r50SlotValue_eq_some_iff.mpr h0, r50SlotValue_eq_some_iff.mpr h1, r50SlotValue_eq_some_iff.mpr h2]
  have hcode : [v0, v1, v2].foldl (fun acc v => acc * 40 + v) 0 = v0 * 1600 + v1 * 40 + v2 := by
    simp only [List.foldl_cons, List.foldl_nil]
    ring
  simp only [r50Encode, hslots, hcode]

/-- A list is mapped to nothing when one of its elements is. -/
theorem mapM_eq_none_of_mem {α β : Type} {f : α → Option β} {a : α} {l : List α} (ha : a ∈ l) (hf : f a = none) :
    l.mapM f = none := by
  induction ha with
  | head l => simp [hf]
  | tail b _ ih => simp [ih]

/-- A character without a value among the first three stands in one of the three slots, which then has no value. -/
theorem r50Encode_badSymbol {cs : List CharCode} {c : CharCode} (hc : c ∈ cs.take 3) (hv : ∀ v, ¬ R50Symbol c v) :
    r50Encode cs = .raise .badSymbol := by
  obtain ⟨i, hi⟩ := List.mem_iff_getElem?.mp hc
  obtain ⟨hlt, hget⟩ : i < 3 ∧ cs[i]? = some c := by simpa [List.getElem?_take] using hi
  have hnone : r50SlotValue cs i = none := by
    simpa [r50SlotValue, hget, Option.eq_none_iff_forall_ne_some, r50Value_eq_some_iff] using hv
  have hslots : r50Slots cs = none := mapM_eq_none_of_mem (List.mem_range.mpr hlt : i ∈ List.range 3) hnone
  simp only [r50Encode, hslots]

/-- The three quotients of the division by 1600, 40 and 1 are the digits of the code in base 40. -/
theorem r50Quotients_divisors (n : Nat) : r50Quotients divisors n = [n / 1600, n % 1600 / 40, n % 40] := by
  simp only [divisors, r50Quotients, List.cons.injEq, and_true, true_and]
  omega

/-- The entries of the ROM table, by the column "code out" of R170. -/
theorem alphabet_getD_eq_r50CharOut : ∀ q < 40, alphabet.getD q 0 = r50CharOut q := by
  decide

theorem r50Decode_string {code : W16} (h : code.toNat ≤ 63999) :
    r50Decode code = .complete (.chars
      [r50CharOut (code.toNat / 1600), r50CharOut (code.toNat % 1600 / 40), r50CharOut (code.toNat % 40)]) := by
  have h0 := alphabet_getD_eq_r50CharOut (code.toNat / 1600) (by omega)
  have h1 := alphabet_getD_eq_r50CharOut (code.toNat % 1600 / 40) (by omega)
  have h2 := alphabet_getD_eq_r50CharOut (code.toNat % 40) (by omega)
  rw [r50Decode, if_neg (Nat.not_lt.mpr h), r50Quotients_divisors]
  simp only [List.map_cons, List.map_nil, h0, h1, h2]

theorem r50Decode_badCode {code : W16} (h : code.toNat > 63999) : r50Decode code = .raise .badCode :=
  if_pos h

/-! ### One transaction of each operation -/

section Transactions

variable {s : State} {req : Request} {rest : List Request}

theorem exec_midEnc_eq {ws : List W32} (hp : s.pending = req :: rest) (hs : req.Supplies .w32s ws) :
    exec .midEnc s = .next (s.answer req rest (onScalar midEncode ws)) :=
  transact_eq hp hs.asW32s _

theorem exec_midDec_eq {bs : List Byte} (hp : s.pending = req :: rest) (hs : req.Supplies .bytes bs) (off : Nat) :
    exec (.midDec off) s = .next (s.answer req rest (midDecode off bs)) :=
  transact_eq hp hs.asBytes _

theorem exec_vaxdEnc_eq {xs : List W64} (hp : s.pending = req :: rest) (hs : req.Supplies .w64s xs) :
    exec .vaxdEnc s = .next (s.answer req rest (onScalar vaxEncode xs)) :=
  transact_eq hp hs.asW64s _

theorem exec_vaxdDec_eq {bs : List Byte} (hp : s.pending = req :: rest) (hs : req.Supplies .bytes bs) (off : Nat) :
    exec (.vaxdDec off) s = .next (s.answer req rest (vaxDecode off bs)) :=
  transact_eq hp hs.asBytes _

theorem exec_r50Enc_eq {cs : List CharCode} (hp : s.pending = req :: rest) (hs : req.Supplies .chars cs) :
    exec .r50Enc s = .next (s.answer req rest (r50Encode cs)) :=
  transact_eq hp hs.asChars _

theorem exec_r50Dec_eq {ws : List W16} (hp : s.pending = req :: rest) (hs : req.Supplies .w16s ws) :
    exec .r50Dec s = .next (s.answer req rest (onScalar r50Decode ws)) :=
  transact_eq hp hs.asW16s _

end Transactions

theorem decode_vaxdEnc : decode 0x2100000000000000 = .ok .vaxdEnc := by decide

/-- VAXD.ENC as the command that supplies one pattern. -/
theorem gives_vaxdEnc (X : W64) : Gives 0x2100000000000000 (.w64s [X]) (.bytes (vaxLayout (vaxOfIeee X))) := by
  have hport : Op.ofPorts 0x2100000000000000 (some (.w64s [X])) = some (.vaxdEnc (some [X])) :=
    Op.ofPorts_legal decode_vaxdEnc _
  have hword : decode (Op.vaxdEnc (some [X])).cw = .ok .vaxdEnc := by
    rw [Op.cw, encode, decode_toWord, Laws.FieldsDecode.vaxdEnc rfl]
  rw [Gives, ← vaxEncode_eq, ← onScalar_singleton vaxEncode]
  exact transaction_eq hport hword (fun _ => rfl) rfl

/-! ### The statements -/

/-- Settles O40: the two bytes of each half at the offset are exchanged. -/
theorem midDecWord : Obligations.MidDecWord := by
  refine ⟨decode_midDec, fun s req rest bs off hp hs => ⟨fun hin => ?_, fun hout => ?_⟩⟩
  · rw [exec_midDec_eq hp hs, midDecode_word hin]
  · rw [exec_midDec_eq hp hs, midDecode_outOfRange hout]

/-- Settles O42, by the encoding on the fields of the pattern. -/
theorem vaxEncPattern : Obligations.VaxEncPattern := by
  refine ⟨decode_vaxdEnc, fun s req rest xs hp hs => ⟨?_, fun hbad => ?_⟩⟩
  · rintro S E F rfl
    rw [exec_vaxdEnc_eq hp hs, onScalar_singleton, vaxEncode_eq, vaxOfIeee_append]
  · rw [exec_vaxdEnc_eq hp hs, onScalar_badLength _ hbad]

/-- Settles O43, by the decoding on the fields of the pattern at the offset. -/
theorem vaxDecPattern : Obligations.VaxDecPattern := by
  refine ⟨decode_vaxdDec, fun s req rest bs off hp hs => ⟨fun S e f hin hV => ?_, fun hout => ?_⟩⟩
  · rw [exec_vaxdDec_eq hp hs, vaxDecode_pattern hin, vaxWord_eq_append, hV, ieeeOfVax_append]
  · rw [exec_vaxdDec_eq hp hs, vaxDecode_outOfRange hout]

/-- Settles O46: the second and third branches of the encoding on fields, the third at the re-biased exponent 0. -/
theorem vaxEncUnderflow : Obligations.VaxEncUnderflow := by
  constructor
  · intro S E F hflush
    have hzero : vaxOfIeee (S ++ E ++ F) = 0#64 := by
      rw [vaxOfIeee_append, if_neg (by omega), if_pos (hflush.imp_left Nat.lt_succ_of_le)]
    have hgives := gives_vaxdEnc (S ++ E ++ F)
    rw [hzero] at hgives
    exact hgives
  · intro F
    have hreserved : vaxOfIeee (1#1 ++ 894#11 ++ F) = 1#1 ++ 0#8 ++ F ++ 0#3 := by
      rw [vaxOfIeee_append, if_neg (by decide), if_neg (by decide)]
      rfl
    exact hreserved ▸ gives_vaxdEnc (1#1 ++ 894#11 ++ F)

/-- Settles O48: each slot value is a digit in base 40. -/
theorem r50EncCode : Obligations.R50EncCode := by
  refine ⟨by decide, fun s req rest cs hp hs => ⟨fun v0 v1 v2 h0 h1 h2 => ⟨?_, ?_⟩, ?_⟩⟩
  · have hlt0 := h0.lt_forty
    have hlt1 := h1.lt_forty
    have hlt2 := h2.lt_forty
    omega
  · rw [exec_r50Enc_eq hp hs, r50Encode_code h0 h1 h2]
  · rintro ⟨c, hc, hv⟩
    rw [exec_r50Enc_eq hp hs, r50Encode_badSymbol hc hv]

/-- Settles O49, by the digits of the code in base 40 and the ROM table. -/
theorem r50DecString : Obligations.R50DecString := by
  refine ⟨by decide, fun s req rest ws hp hs => ⟨?_, ?_, fun hbad => ?_⟩⟩
  · rintro code rfl hcode
    rw [exec_r50Dec_eq hp hs, onScalar_singleton, r50Decode_string hcode]
  · rintro code rfl hcode
    rw [exec_r50Dec_eq hp hs, onScalar_singleton, r50Decode_badCode hcode]
  · rw [exec_r50Dec_eq hp hs, onScalar_badLength _ hbad]

/-- Settles O39: the four bytes are the model's own layout. -/
theorem midEncBytes : Obligations.MidEncBytes := by
  refine ⟨by decide, fun s req rest ws hp hs => ⟨?_, fun hbad => ?_⟩⟩
  · rintro v rfl
    exact exec_midEnc_eq hp hs
  · rw [exec_midEnc_eq hp hs, onScalar_badLength _ hbad]

end Machine

end Sys2Proof

/-! PROOFS. The textual binary codec (43_textual_binary.md R190 to R194): which strings are read and as what bits, the bits of a
packed numeral, and the characters of a printed byte sequence. Each operation's result is an equation of its own before a
transaction answers with it. -/

namespace Sys2Proof.Machine

/-! ### Characters as bits (R190) -/

theorem bitOfChar_of_binary {c : CharCode} (h : c = 0x30 ∨ c = 0x31) :
    bitOfChar Config.textLenient c = some (decide (c = 0x31)) := by
  rcases h with rfl | rfl <;> rfl

theorem bitOfChar_of_other {c : CharCode} (h0 : c ≠ 0x30) (h1 : c ≠ 0x31) : bitOfChar Config.textLenient c = none := by
  rw [bitOfChar, if_neg h1, if_neg h0]
  rfl

/-- Where a partial function is total on the elements of a list, mapping it is mapping the total function. -/
theorem mapM_eq_some_map {α β : Type} {f : α → Option β} {g : α → β} {l : List α} (h : ∀ a ∈ l, f a = some (g a)) :
    l.mapM f = some (l.map g) := by
  induction l with
  | nil => rfl
  | cons a l ih =>
    obtain ⟨ha, hl⟩ := List.forall_mem_cons.mp h
    simp [ha, ih hl]

theorem mapM_bitOfChar_of_binary {cs : List CharCode} (h : ∀ c ∈ cs, c = 0x30 ∨ c = 0x31) :
    cs.mapM (bitOfChar Config.textLenient) = some (cs.map fun c => decide (c = 0x31)) :=
  mapM_eq_some_map fun c hc => bitOfChar_of_binary (h c hc)

/-! ### S2V (R191) -/

theorem stringToBits_bits {cs : List CharCode} (h : ∀ c ∈ cs, c = 0x30 ∨ c = 0x31) :
    stringToBits cs = .complete (.bits (cs.map fun c => decide (c = 0x31))) := by
  rw [stringToBits, mapM_bitOfChar_of_binary h]

theorem stringToBits_badSymbol {cs : List CharCode} {c : CharCode} (hc : c ∈ cs) (h0 : c ≠ 0x30) (h1 : c ≠ 0x31) :
    stringToBits cs = .raise .badSymbol := by
  rw [stringToBits, mapM_eq_none_of_mem hc (bitOfChar_of_other h0 h1)]

/-! ### S2P (R193) -/

/-- Bit `i` of the value of an LSB_FIRST vector is its bit at index `i`, and 0 past its end (R137). -/
theorem testBit_natOfBitsLsb (v : List Bit) (i : Nat) : (natOfBitsLsb v).testBit i = v.getD i false := by
  induction v generalizing i with
  | nil => simp [natOfBitsLsb]
  | cons b v ih =>
    have hbit : natOfBitsLsb (b :: v) = Nat.bit b (natOfBitsLsb v) := by
      rw [Nat.bit_val, natOfBitsLsb, Nat.add_comm]
    rw [hbit]
    cases i with
    | zero => exact Nat.testBit_bit_zero b _
    | succ i => rw [Nat.testBit_bit_succ, ih, List.getD_cons_succ]

/-- Bit `j` of byte `k` is numeral bit `8k + j`: the first byte takes the bits below 8, the others pack what is left. -/
theorem packBits_getLsbD {n k j : Nat} (v : List Bit) (hk : k < n) (hj : j < 8) :
    ((packBits n v).getD k 0).getLsbD j = v.getD (8 * k + j) false := by
  induction n generalizing k v with
  | zero => exact absurd hk (Nat.not_lt_zero k)
  | succ n ih =>
    cases k with
    | zero =>
      rw [packBits, List.getD_cons_zero, BitVec.getLsbD_ofNat, testBit_natOfBitsLsb]
      simp [List.getD_eq_getElem?_getD, hj]
    | succ k =>
      have hindex : 8 + (8 * k + j) = 8 * (k + 1) + j := by omega
      rw [packBits, List.getD_cons_succ, ih _ (Nat.lt_of_succ_lt_succ hk)]
      simp only [List.getD_eq_getElem?_getD, List.getElem?_drop, hindex]

/-- Numeral bit `i` of a string is its character `i` from the right, and 0 past its leftmost character. -/
theorem numeralBit_eq (t : List CharCode) (i : Nat) :
    (t.map fun c => decide (c = 0x31)).reverse.getD i false
      = (decide (i < t.length) && decide (t.getD (t.length - 1 - i) 0 = 0x31)) := by
  by_cases hi : i < t.length
  · have hback : t.length - 1 - i < t.length := by omega
    simp [List.getD_eq_getElem?_getD, hi, hback]
  · simp [List.getD_eq_getElem?_getD, hi]

theorem stringToPackedBytes_bytes {cs : List CharCode} (h : ∀ c ∈ cs, c = 0x30 ∨ c = 0x31 ∨ c = 0x20) :
    stringToPackedBytes cs = .complete (.bytes (packBits (((cs.filter (· ≠ 0x20)).length + 7) / 8)
      ((cs.filter (· ≠ 0x20)).map fun c => decide (c = 0x31)).reverse)) := by
  have hbinary : ∀ c ∈ cs.filter (· ≠ 0x20), c = 0x30 ∨ c = 0x31 := by
    intro c hc
    obtain ⟨hmem, hspace⟩ : c ∈ cs ∧ c ≠ 0x20 := by simpa using hc
    exact (or_assoc.mpr (h c hmem)).resolve_right hspace
  rw [stringToPackedBytes, mapM_bitOfChar_of_binary hbinary]
  simp only [List.length_map]

theorem stringToPackedBytes_badSymbol {cs : List CharCode} {c : CharCode} (hc : c ∈ cs) (h0 : c ≠ 0x30) (h1 : c ≠ 0x31)
    (hspace : c ≠ 0x20) : stringToPackedBytes cs = .raise .badSymbol := by
  have hkept : c ∈ cs.filter (· ≠ 0x20) := List.mem_filter.mpr ⟨hc, decide_eq_true hspace⟩
  rw [stringToPackedBytes, mapM_eq_none_of_mem hkept (bitOfChar_of_other h0 h1)]

/-! ### P2S (R194) -/

/-- The eight characters of a byte. -/
def byteString (b : Byte) : List CharCode :=
  (bitsOf .msbFirst 8 b).map charOfBit

@[simp] theorem byteString_length (b : Byte) : (byteString b).length = 8 := by
  simp [byteString]

/-- Character `p` of a byte is its bit `7 - p`. -/
theorem byteString_getD (b : Byte) {p : Nat} (hp : p < 8) :
    (byteString b).getD p 0 = if b.getLsbD (7 - p) then 0x31 else 0x30 := by
  simp [byteString, bitsOf_msbFirst, List.getD_eq_getElem?_getD, hp, charOfBit]

/-- Where every element of a list gives `n` items, item `n * j + p` of all of them is item `p` of element `j`. -/
theorem flatMap_getD {α β : Type} {f : α → List β} {n : Nat} (hf : ∀ a, (f a).length = n) {l : List α} {j p : Nat}
    (hj : j < l.length) (hp : p < n) (a : α) (b : β) : (l.flatMap f).getD (n * j + p) b = (f (l.getD j a)).getD p b := by
  induction l generalizing j with
  | nil => exact absurd hj (Nat.not_lt_zero j)
  | cons x l ih =>
    rw [List.flatMap_cons]
    cases j with
    | zero =>
      rw [Nat.mul_zero, Nat.zero_add, List.getD_append _ _ _ _ (by rwa [hf]), List.getD_cons_zero]
    | succ j =>
      have hsplit : n * (j + 1) + p = n + (n * j + p) := by ring
      rw [hsplit, List.getD_append_right _ _ _ _ (by simp [hf]), hf, Nat.add_sub_cancel_left,
        ih (Nat.lt_of_succ_lt_succ hj), List.getD_cons_succ]

/-- Character `8j + p` of the printed bytes is bit `7 - p` of the byte `j` from the highest index. -/
theorem printedBytes_getD {bs : List Byte} {j p : Nat} (hj : j < bs.length) (hp : p < 8) :
    (bs.reverse.flatMap byteString).getD (8 * j + p) 0
      = if (bs.getD (bs.length - 1 - j) 0).getLsbD (7 - p) then 0x31 else 0x30 := by
  have hj' : j < bs.reverse.length := by rwa [List.length_reverse]
  rw [flatMap_getD byteString_length hj' hp 0, List.getD_reverse _ hj, byteString_getD _ hp]

/-! ### One transaction of each operation -/

section Transactions

variable {s : State} {req : Request} {rest : List Request}

theorem exec_s2v_eq {cs : List CharCode} (hp : s.pending = req :: rest) (hs : req.Supplies .chars cs) :
    exec .s2v s = .next (s.answer req rest (stringToBits cs)) :=
  transact_eq hp hs.asChars _

theorem exec_v2s_eq {v : List Bit} (hp : s.pending = req :: rest) (hs : req.Supplies .bits v) :
    exec .v2s s = .next (s.answer req rest (.complete (.chars (v.map charOfBit)))) :=
  transact_eq hp hs.asBits _

theorem exec_s2p_eq {cs : List CharCode} (hp : s.pending = req :: rest) (hs : req.Supplies .chars cs) :
    exec .s2p s = .next (s.answer req rest (stringToPackedBytes cs)) :=
  transact_eq hp hs.asChars _

theorem exec_p2s_eq {bs : List Byte} (hp : s.pending = req :: rest) (hs : req.Supplies .bytes bs) :
    exec .p2s s = .next (s.answer req rest (.complete (.chars (bs.reverse.flatMap byteString)))) :=
  transact_eq hp hs.asBytes _

end Transactions

/-! ### The statements -/

/-- Settles O51, by the two outcomes of reading a string of bits. -/
theorem s2vBits : Obligations.S2vBits := by
  refine ⟨by decide, fun s req rest cs hp hs => ⟨fun hbinary => ?_, ?_⟩⟩
  · rw [exec_s2v_eq hp hs, stringToBits_bits hbinary]
  · rintro ⟨c, hc, h0, h1⟩
    rw [exec_s2v_eq hp hs, stringToBits_badSymbol hc h0 h1]

/-- Settles O52: the characters of the bits are the model's own. -/
theorem v2sString : Obligations.V2sString :=
  ⟨by decide, fun _ _ _ _ hp hs => exec_v2s_eq hp hs⟩

/-- Settles O53: bit `8k + j` of the numeral is bit `j` of byte `k`, and the character `8k + j` from the right. -/
theorem s2pPackedBytes : Obligations.S2pPackedBytes := by
  refine ⟨by decide, fun s req rest cs hp hs => ⟨fun hbinary => ?_, ?_⟩⟩
  · refine ⟨_, (exec_s2p_eq hp hs).trans (by rw [stringToPackedBytes_bytes hbinary]), packBits_length _ _, ?_⟩
    intro k j hk hj
    rw [packBits_length] at hk
    rw [packBits_getLsbD _ hk hj, numeralBit_eq]
  · rintro ⟨c, hc, h0, h1, hspace⟩
    rw [exec_s2p_eq hp hs, stringToPackedBytes_badSymbol hc h0 h1 hspace]

/-- Settles O54, by the position of a byte among the printed bytes and of a bit in its byte. -/
theorem p2sString : Obligations.P2sString := by
  refine ⟨by decide, fun s req rest bs hp hs => ⟨_, exec_p2s_eq hp hs, ?_, fun j p hj hp8 => printedBytes_getD hj hp8⟩⟩
  simp [List.length_flatMap, Nat.mul_comm]

end Sys2Proof.Machine

/-! PROOFS. The command word and the instruction determine each other (30_encoding.md R70 to R83): each kind of row is read
backwards once, and the 24 codes of the map only name their row. -/

namespace Sys2Proof

/-! ### Instruction to word to instruction -/

theorem decodeFields_fields (i : Instr) : Laws.FieldsDecode.Statement i := by
  open Laws.FieldsDecode in
  cases i with
  | encI16 => exact encI16
  | encI32 => exact encI32
  | encI64 => exact encI64
  | encF32 => exact encF32
  | encF64 => exact encF64
  | decI16 => exact decI16
  | decI32 => exact decI32
  | decI64 => exact decI64
  | decF32 => exact decF32
  | decF64 => exact decF64
  | b2vB ord n => exact b2vB ord n
  | b2vW ord n => exact b2vW ord n
  | v2bB ord => exact v2bB ord
  | v2bW ord => exact v2bW ord
  | midEnc => exact midEnc
  | vaxdEnc => exact vaxdEnc
  | r50Enc => exact r50Enc
  | midDec off => exact midDec off
  | vaxdDec off => exact vaxdDec off
  | r50Dec => exact r50Dec
  | s2v => exact s2v
  | s2p => exact s2p
  | v2s => exact v2s
  | p2s => exact p2s

theorem decode_encode {i : Instr} (h : i.wellFormed = true) : decode (encode i) = .ok i := by
  rw [encode, decode_toWord, decodeFields_fields i h]

/-! ### Word to instruction to word -/

/-- The fields of a legal word are the ones its instruction sets. -/
def DecodesBack (f : Fields) (i : Instr) : Prop := i.wellFormed = true ∧ i.fields = f

section Rows

variable {op : BitVec 8} {ord : BitVec 1} {n : BitVec 6} {off : BitVec 32} {j : Instr}

/-- A row that reads no field: the word holds the operation code alone. -/
theorem decodesBack_of_decodePlain {i : Instr} (hwf : i.wellFormed = true) (hf : i.fields = Fields.ofOp op)
    (h : decodePlain ⟨op, ord, 0, n, 0, off⟩ i = .ok j) : DecodesBack ⟨op, ord, 0, n, 0, off⟩ j := by
  unfold decodePlain at h
  split at h
  · obtain ⟨rfl, rfl, rfl⟩ := ‹ord = 0 ∧ n = 0 ∧ off = 0›
    cases h
    exact ⟨hwf, hf⟩
  · cases h

/-- A row that reads `ORD` and `N`. -/
theorem decodesBack_of_decodeOrdN {i : BitOrder → Nat → Instr} (hwf : ∀ o k, (i o k).wellFormed = decide (k < 2 ^ 6))
    (hf : ∀ o k, (i o k).fields = { Fields.ofOp op with ord := o.toBit, n := BitVec.ofNat 6 k })
    (h : decodeOrdN ⟨op, ord, 0, n, 0, off⟩ i = .ok j) : DecodesBack ⟨op, ord, 0, n, 0, off⟩ j := by
  unfold decodeOrdN at h
  split at h
  · obtain rfl := ‹off = 0›
    cases h
    exact ⟨(hwf _ _).trans (decide_eq_true n.isLt), by simp [hf, Fields.ofOp]⟩
  · cases h

/-- A row that reads `ORD` alone. -/
theorem decodesBack_of_decodeOrd {i : BitOrder → Instr} (hwf : ∀ o, (i o).wellFormed = true)
    (hf : ∀ o, (i o).fields = { Fields.ofOp op with ord := o.toBit })
    (h : decodeOrd ⟨op, ord, 0, n, 0, off⟩ i = .ok j) : DecodesBack ⟨op, ord, 0, n, 0, off⟩ j := by
  unfold decodeOrd at h
  split at h
  · obtain ⟨rfl, rfl⟩ := ‹n = 0 ∧ off = 0›
    cases h
    exact ⟨hwf _, by simp [hf, Fields.ofOp]⟩
  · cases h

/-- A row that reads `OFF`. -/
theorem decodesBack_of_decodeOff {i : Nat → Instr} (hwf : ∀ k, (i k).wellFormed = decide (k < 2 ^ 32))
    (hf : ∀ k, (i k).fields = { Fields.ofOp op with off := BitVec.ofNat 32 k })
    (h : decodeOff ⟨op, ord, 0, n, 0, off⟩ i = .ok j) : DecodesBack ⟨op, ord, 0, n, 0, off⟩ j := by
  unfold decodeOff at h
  split at h
  · obtain ⟨rfl, rfl⟩ := ‹ord = 0 ∧ n = 0›
    cases h
    exact ⟨(hwf _).trans (decide_eq_true off.isLt), by simp [hf, Fields.ofOp]⟩
  · cases h

end Rows

/-- The rows of the opcode map, each read backwards by the fields it reads. -/
theorem decodesBack_of_decodeFields {f : Fields} {j : Instr} (h : decodeFields f = .ok j) : DecodesBack f j := by
  obtain ⟨op, ord, rsv1, n, rsv2, off⟩ := f
  unfold decodeFields at h
  split at h
  case isFalse => cases h
  obtain ⟨rfl, rfl⟩ := ‹rsv1 = 0 ∧ rsv2 = 0›
  have hop {k : Nat} (hk : op.toNat = k) : op = BitVec.ofNat 8 k := by rw [← hk, BitVec.ofNat_toNat, BitVec.setWidth_eq]
  unfold decodeOp at h
  split at h
  case h_25 => cases h
  all_goals obtain rfl := hop ‹op.toNat = _›
  case h_11 | h_12 => exact decodesBack_of_decodeOrdN (fun _ _ => rfl) (fun _ _ => rfl) h
  case h_13 | h_14 => exact decodesBack_of_decodeOrd (fun _ => rfl) (fun _ => rfl) h
  case h_18 | h_19 => exact decodesBack_of_decodeOff (fun _ => rfl) (fun _ => rfl) h
  all_goals exact decodesBack_of_decodePlain rfl rfl h

theorem wellFormed_of_decode {cw : CommandWord} {i : Instr} (h : decode cw = .ok i) : i.wellFormed = true :=
  (decodesBack_of_decodeFields h).1

theorem encode_of_decode {cw : CommandWord} {i : Instr} (h : decode cw = .ok i) : encode i = cw := by
  rw [encode, (decodesBack_of_decodeFields h).2, Fields.toWord_ofWord]

/-! ### The statements -/

/-- Settles O2: the joined fields are split again, and decode to the instruction that set them. -/
theorem decodeEncode : Obligations.DecodeEncode := fun _ => decode_encode

/-- Settles O3: a legal word is joined from the fields that its instruction sets. -/
theorem encodeDecode : Obligations.EncodeDecode := fun _ _ h => ⟨wellFormed_of_decode h, encode_of_decode h⟩

/-- Settles O1, by running the decoder on each word. -/
theorem specWordsDecode : Obligations.SpecWordsDecode := by
  unfold Obligations.SpecWordsDecode
  decide

end Sys2Proof

/-! PROOFS. One operation, seen apart from the traffic: a typed port carries the items of one type, an operation is a
function of those items, and a command is an operation with its input (00_scope.md R11; 10_state.md R26, R32). The model's
dispatch, its ports and its commands are each tied to these once; what follows argues for every operation at once. -/

namespace Sys2Proof.Machine

/-! ### The items of a port -/

/-- What an item of a type is (00_scope.md R13). -/
def ItemType.Item : ItemType → Type
  | .byte => Byte
  | .w16 => W16
  | .w32 => W32
  | .w64 => W64
  | .bit => Bit
  | .char => CharCode

/-- Items of a type as a sequence at a port. -/
def ItemType.seq : (t : ItemType) → List t.Item → Items
  | .byte => .bytes
  | .w16 => .w16s
  | .w32 => .w32s
  | .w64 => .w64s
  | .bit => .bits
  | .char => .chars

/-- A sequence at a port read at a type. -/
def ItemType.view : (t : ItemType) → Items → Option (List t.Item)
  | .byte => Items.asBytes
  | .w16 => Items.asW16s
  | .w32 => Items.asW32s
  | .w64 => Items.asW64s
  | .bit => Items.asBits
  | .char => Items.asChars

@[simp] theorem ItemType.view_seq (t : ItemType) (xs : List t.Item) : t.view (t.seq xs) = some xs := by
  cases t <;> rfl

@[simp] theorem ItemType.view_empty (t : ItemType) : t.view .empty = some [] := by
  cases t <;> rfl

@[simp] theorem ItemType.seq_itemType (t : ItemType) (xs : List t.Item) : (t.seq xs).itemType = some t := by
  cases t <;> rfl

/-- A sequence of a type is what the port of that type carries. -/
theorem ItemType.exists_seq_of_itemType {t : ItemType} {x : Items} (h : x.itemType = some t) : ∃ xs, t.seq xs = x := by
  cases x <;> cases h <;> exact ⟨_, rfl⟩

/-- What a port that can be read at a type holds: the items read, or the `[]` without a type (log entry 6). -/
theorem ItemType.eq_of_view {t : ItemType} {x : Items} {xs : List t.Item} (h : t.view x = some xs) :
    x = t.seq xs ∨ x = .empty ∧ xs = [] := by
  cases x with
  | empty => exact .inr ⟨rfl, by simpa using h.symm⟩
  | _ =>
    cases t <;> cases h
    exact .inl rfl

/-- A port can be read at the types that may stand at it, and at no other (10_state.md R32). -/
theorem ItemType.view_isSome (t : ItemType) (x : Items) : (t.view x).isSome = x.hasType t := by
  cases t <;> cases x <;> rfl

/-! ### What an operation computes -/

/-- What an operation answers to the items at its port (00_scope.md R11). -/
def resultOf : (i : Instr) → List (inputType i).Item → Result
  | .encI16 => fun ws : List W16 => .complete (.bytes (encodeWords ws))
  | .encI32 => fun ws : List W32 => .complete (.bytes (encodeWords ws))
  | .encI64 => fun ws : List W64 => .complete (.bytes (encodeWords ws))
  | .encF32 => fun ws : List W32 => .complete (.bytes (encodeWords ws))
  | .encF64 => fun ws : List W64 => .complete (.bytes (encodeWords ws))
  | .decI16 => fun bs => .complete (.w16s (decodeWords 16 bs))
  | .decI32 => fun bs => .complete (.w32s (decodeWords 32 bs))
  | .decI64 => fun bs => .complete (.w64s (decodeWords 64 bs))
  | .decF32 => fun bs => .complete (.w32s (decodeWords 32 bs))
  | .decF64 => fun bs => .complete (.w64s (decodeWords 64 bs))
  | .b2vB ord n => toBits (w := 8) ord n
  | .b2vW ord n => toBits (w := 32) ord n
  | .v2bB ord => fromBits ord 8 .bytes
  | .v2bW ord => fromBits ord 32 .w32s
  | .midEnc => onScalar midEncode
  | .vaxdEnc => onScalar vaxEncode
  | .r50Enc => r50Encode
  | .midDec off => midDecode off
  | .vaxdDec off => vaxDecode off
  | .r50Dec => onScalar r50Decode
  | .s2v => stringToBits
  | .s2p => stringToPackedBytes
  | .v2s => fun bs : List Bit => .complete (.chars (bs.map charOfBit))
  | .p2s => fun bs : List Byte => .complete (.chars (bs.reverse.flatMap byteString))

/-- Every arm of the dispatch is one transaction: the port read at the operation's item type, and its answer delivered. -/
theorem exec_eq_transact (i : Instr) (s : State) : exec i s = s.transact (inputType i).view (resultOf i) := by
  cases i <;> rfl

/-- All an operation may answer: it completes with an output of its type and length (10_state.md R26), or raises one of its
conditions (60_exceptions.md R218). -/
def AllowedResult (i : Instr) (xs : List (inputType i).Item) (r : Result) : Prop :=
  (∃ out, r = .complete out ∧ out.itemType = some (outputType i) ∧
      out.length = outputLength i ((inputType i).seq xs)) ∨
    ∃ st ∈ conditionsOf i, r = .raise st

theorem allowed_complete {i : Instr} {xs : List (inputType i).Item} {out : Items} (ht : out.itemType = some (outputType i))
    (hl : out.length = outputLength i ((inputType i).seq xs)) : AllowedResult i xs (.complete out) :=
  .inl ⟨out, rfl, ht, hl⟩

theorem allowed_raise {i : Instr} {xs : List (inputType i).Item} {st : Status} (h : st ∈ conditionsOf i) :
    AllowedResult i xs (.raise st) :=
  .inr ⟨st, h, rfl⟩

/-- A word of 16, 32 or 64 bits gives its number of bytes. -/
theorem encodeWords_items_length {w k : Nat} (hw : w / 8 = k) (ws : List (BitVec w)) :
    (Items.bytes (encodeWords ws)).length = k * ws.length := by
  rw [Items.length, encodeWords_length, hw, Nat.mul_comm]

theorem allowed_toBits {i : Instr} {xs : List (inputType i).Item} {w : Nat} (ord : BitOrder) (n : Nat) (vs : List (BitVec w))
    (ht : outputType i = .bit) (hl : outputLength i ((inputType i).seq xs) = n) (hc : .badLength ∈ conditionsOf i) :
    AllowedResult i xs (toBits ord n vs) := by
  unfold toBits
  split
  · split
    · exact allowed_raise hc
    · exact allowed_complete (by rw [ht]; rfl) (by rw [hl, Items.length, bitsOf_length])
  · exact allowed_raise hc

theorem allowed_fromBits {i : Instr} {xs : List (inputType i).Item} {w : Nat} (ord : BitOrder)
    {out : List (BitVec w) → Items} (v : List Bit) (ht : ∀ x, (out [x]).itemType = some (outputType i))
    (hl : ∀ x, (out [x]).length = outputLength i ((inputType i).seq xs)) (hc : .badLength ∈ conditionsOf i) :
    AllowedResult i xs (fromBits ord w out v) := by
  unfold fromBits
  split
  · exact allowed_raise hc
  · exact allowed_complete (ht _) (hl _)

/-- An operation on one item may answer what it answers to each item, or BAD_LENGTH. -/
theorem allowed_onScalar {i : Instr} {xs : List (inputType i).Item} {α : Type} {op : α → Result} {as : List α}
    (hop : ∀ a, AllowedResult i xs (op a)) (hc : .badLength ∈ conditionsOf i) : AllowedResult i xs (onScalar op as) := by
  unfold onScalar
  split
  · exact hop _
  · exact allowed_raise hc

/-- Where a partial function is defined on every element of a list, mapping it keeps the length. -/
theorem length_of_mapM_eq_some {α β : Type} {f : α → Option β} {l : List α} {l' : List β} (h : l.mapM f = some l') :
    l'.length = l.length := by
  induction l generalizing l' with
  | nil =>
    obtain rfl : l' = [] := by simpa using h.symm
    rfl
  | cons a l ih =>
    obtain ⟨b, hb, bs, hbs, rfl⟩ : ∃ b, f a = some b ∧ ∃ bs, l.mapM f = some bs ∧ b :: bs = l' := by
      simpa [List.mapM_cons, Option.bind_eq_some_iff] using h
    rw [List.length_cons, List.length_cons, ih hbs]

theorem allowed_r50Encode (cs : List CharCode) : AllowedResult .r50Enc cs (r50Encode cs) := by
  unfold r50Encode
  split
  · exact allowed_complete rfl rfl
  · exact allowed_raise (by decide)

theorem allowed_r50Decode (xs : List W16) (code : W16) : AllowedResult .r50Dec xs (r50Decode code) := by
  unfold r50Decode
  split
  · exact allowed_raise (by decide)
  · exact allowed_complete rfl rfl

theorem allowed_midDecode (off : Nat) (bs : List Byte) : AllowedResult (.midDec off) bs (midDecode off bs) := by
  unfold midDecode
  split
  · exact allowed_raise (.head _)
  · exact allowed_complete rfl rfl

theorem allowed_vaxDecode (off : Nat) (bs : List Byte) : AllowedResult (.vaxdDec off) bs (vaxDecode off bs) := by
  unfold vaxDecode
  split
  · exact allowed_raise (.head _)
  · exact allowed_complete rfl rfl

theorem allowed_stringToBits (cs : List CharCode) : AllowedResult .s2v cs (stringToBits cs) := by
  unfold stringToBits
  split
  next bs hbs => exact allowed_complete rfl (length_of_mapM_eq_some hbs)
  next => exact allowed_raise (by decide)

theorem allowed_stringToPackedBytes (cs : List CharCode) : AllowedResult .s2p cs (stringToPackedBytes cs) := by
  unfold stringToPackedBytes
  split
  next bs hbs =>
    refine allowed_complete rfl ?_
    rw [Items.length, packBits_length, length_of_mapM_eq_some hbs]
    rfl
  next => exact allowed_raise (by decide)

theorem printedBytes_length (bs : List Byte) : (bs.reverse.flatMap byteString).length = 8 * bs.length := by
  simp [List.length_flatMap, Nat.mul_comm]

/-- Once for each operation: everything it can answer. -/
theorem resultOf_allowed (i : Instr) (xs : List (inputType i).Item) : AllowedResult i xs (resultOf i xs) := by
  cases i with
  | encI16 => exact allowed_complete rfl (encodeWords_items_length rfl _)
  | encI32 => exact allowed_complete rfl (encodeWords_items_length rfl _)
  | encI64 => exact allowed_complete rfl (encodeWords_items_length rfl _)
  | encF32 => exact allowed_complete rfl (encodeWords_items_length rfl _)
  | encF64 => exact allowed_complete rfl (encodeWords_items_length rfl _)
  | decI16 => exact allowed_complete rfl (decodeWords_length 16 _)
  | decI32 => exact allowed_complete rfl (decodeWords_length 32 _)
  | decI64 => exact allowed_complete rfl (decodeWords_length 64 _)
  | decF32 => exact allowed_complete rfl (decodeWords_length 32 _)
  | decF64 => exact allowed_complete rfl (decodeWords_length 64 _)
  | b2vB ord n => exact allowed_toBits ord n _ rfl rfl (.head _)
  | b2vW ord n => exact allowed_toBits ord n _ rfl rfl (.head _)
  | v2bB ord => exact allowed_fromBits ord _ (fun _ => rfl) (fun _ => rfl) (.head _)
  | v2bW ord => exact allowed_fromBits ord _ (fun _ => rfl) (fun _ => rfl) (.head _)
  | midEnc => exact allowed_onScalar (fun _ => allowed_complete rfl rfl) (.head _)
  | vaxdEnc => exact allowed_onScalar (fun _ => allowed_complete rfl rfl) (.head _)
  | r50Enc => exact allowed_r50Encode _
  | midDec off => exact allowed_midDecode off _
  | vaxdDec off => exact allowed_vaxDecode off _
  | r50Dec => exact allowed_onScalar (allowed_r50Decode _) (.head _)
  | s2v => exact allowed_stringToBits _
  | s2p => exact allowed_stringToPackedBytes _
  | v2s => exact allowed_complete rfl (List.length_map _)
  | p2s => exact allowed_complete rfl (printedBytes_length _)

/-- The untyped `[]` counts as the empty sequence of the operation's type (log entry 6). -/
theorem outputLength_empty (i : Instr) : outputLength i .empty = outputLength i ((inputType i).seq []) := by
  cases i <;> rfl

theorem resultOf_nil (i : Instr) : resultOf i [] = absentResult i := by
  cases i <;> rfl

/-- Each cross of R218 has items that meet it. -/
theorem exists_raising {i : Instr} {st : Status} (h : st ∈ conditionsOf i) : ∃ xs, resultOf i xs = .raise st := by
  cases i with
  | b2vB | b2vW | v2bB | v2bW | midEnc | vaxdEnc | midDec | vaxdDec =>
    obtain rfl := List.mem_singleton.mp h
    exact ⟨[], rfl⟩
  | r50Enc | s2v | s2p =>
    obtain rfl := List.mem_singleton.mp h
    exact ⟨[0x21#8], rfl⟩
  | r50Dec =>
    rcases List.mem_pair.mp h with rfl | rfl
    · exact ⟨[], rfl⟩
    · exact ⟨[0xFFFF#16], rfl⟩
  | _ => cases h

/-! ### One call of `exec` -/

/-- All a call of `exec` can do when it answers. -/
theorem exec_next {i : Instr} {s t : State} (h : exec i s = .next t) :
    ∃ req rest xs, s.pending = req :: rest ∧ (inputType i).view req.operand = some xs ∧
      t = s.answer req rest (resultOf i xs) :=
  transact_next ((exec_eq_transact i s).symm.trans h)

theorem exec_eq {i : Instr} {s : State} {req : Request} {rest : List Request} {xs : List (inputType i).Item}
    (hp : s.pending = req :: rest) (hv : (inputType i).view req.operand = some xs) :
    exec i s = .next (s.answer req rest (resultOf i xs)) := by
  rw [exec_eq_transact, transact_eq hp hv]

/-! ### Commands -/

/-- The command of an operation with this input. -/
def commandOf : (i : Instr) → Option (List (inputType i).Item) → Op
  | .encI16 => .encI16
  | .encI32 => .encI32
  | .encI64 => .encI64
  | .encF32 => .encF32
  | .encF64 => .encF64
  | .decI16 => .decI16
  | .decI32 => .decI32
  | .decI64 => .decI64
  | .decF32 => .decF32
  | .decF64 => .decF64
  | .b2vB ord n => .b2vB ord (BitVec.ofNat 6 n)
  | .b2vW ord n => .b2vW ord (BitVec.ofNat 6 n)
  | .v2bB ord => .v2bB ord
  | .v2bW ord => .v2bW ord
  | .midEnc => .midEnc
  | .vaxdEnc => .vaxdEnc
  | .r50Enc => .r50Enc
  | .midDec off => .midDec (BitVec.ofNat 32 off)
  | .vaxdDec off => .vaxdDec (BitVec.ofNat 32 off)
  | .r50Dec => .r50Dec
  | .s2v => .s2v
  | .s2p => .s2p
  | .v2s => .v2s
  | .p2s => .p2s

theorem ofInstr_eq_map_commandOf (input : Option Items) (i : Instr) :
    Op.ofInstr input i = (portAs (inputType i).view input).map (commandOf i) := by
  cases i <;> rfl

@[simp] theorem commandOf_cw (i : Instr) (p : Option (List (inputType i).Item)) : (commandOf i p).cw = encode i := by
  cases i with
  | b2vB | b2vW | midDec | vaxdDec =>
    simp only [commandOf, Op.cw, encode, Instr.fields, BitVec.ofNat_toNat, BitVec.setWidth_eq]
  | _ => rfl

@[simp] theorem commandOf_input (i : Instr) (p : Option (List (inputType i).Item)) :
    (commandOf i p).input = p.map (inputType i).seq := by
  cases i <;> rfl

/-- A field of `w` bits holds the number it was made of. -/
theorem wellFormed_field {w : Nat} (v : BitVec w) : decide (v.toNat < 2 ^ w) = true :=
  decide_eq_true v.isLt

/-- Every command is an operation that has a word, with an input of its type, or a word that no operation has. -/
theorem Op.legal_or_illegal (op : Op) :
    (∃ i p, i.wellFormed = true ∧ op = commandOf i p) ∨ ∃ word input, op = .illegal word input := by
  cases op with
  | encI16 p => exact .inl ⟨.encI16, p, rfl, rfl⟩
  | encI32 p => exact .inl ⟨.encI32, p, rfl, rfl⟩
  | encI64 p => exact .inl ⟨.encI64, p, rfl, rfl⟩
  | encF32 p => exact .inl ⟨.encF32, p, rfl, rfl⟩
  | encF64 p => exact .inl ⟨.encF64, p, rfl, rfl⟩
  | decI16 p => exact .inl ⟨.decI16, p, rfl, rfl⟩
  | decI32 p => exact .inl ⟨.decI32, p, rfl, rfl⟩
  | decI64 p => exact .inl ⟨.decI64, p, rfl, rfl⟩
  | decF32 p => exact .inl ⟨.decF32, p, rfl, rfl⟩
  | decF64 p => exact .inl ⟨.decF64, p, rfl, rfl⟩
  | b2vB ord n p => exact .inl ⟨.b2vB ord n.toNat, p, wellFormed_field n, by simp [commandOf]⟩
  | b2vW ord n p => exact .inl ⟨.b2vW ord n.toNat, p, wellFormed_field n, by simp [commandOf]⟩
  | v2bB ord p => exact .inl ⟨.v2bB ord, p, rfl, rfl⟩
  | v2bW ord p => exact .inl ⟨.v2bW ord, p, rfl, rfl⟩
  | midEnc p => exact .inl ⟨.midEnc, p, rfl, rfl⟩
  | vaxdEnc p => exact .inl ⟨.vaxdEnc, p, rfl, rfl⟩
  | r50Enc p => exact .inl ⟨.r50Enc, p, rfl, rfl⟩
  | midDec off p => exact .inl ⟨.midDec off.toNat, p, wellFormed_field off, by simp [commandOf]⟩
  | vaxdDec off p => exact .inl ⟨.vaxdDec off.toNat, p, wellFormed_field off, by simp [commandOf]⟩
  | r50Dec p => exact .inl ⟨.r50Dec, p, rfl, rfl⟩
  | s2v p => exact .inl ⟨.s2v, p, rfl, rfl⟩
  | s2p p => exact .inl ⟨.s2p, p, rfl, rfl⟩
  | v2s p => exact .inl ⟨.v2s, p, rfl, rfl⟩
  | p2s p => exact .inl ⟨.p2s, p, rfl, rfl⟩
  | illegal word input => exact .inr ⟨word, input, rfl⟩

theorem decode_commandOf_cw {i : Instr} (h : i.wellFormed = true) (p : Option (List (inputType i).Item)) :
    decode (commandOf i p).cw = .ok i := by
  rw [commandOf_cw, decode_encode h]

theorem IllegalWord.decode_eq_error (word : IllegalWord) : ∃ e, decode word.1 = .error e := by
  cases hd : decode word.1 with
  | ok i =>
    have hlegal := word.2
    rw [hd] at hlegal
    cases hlegal
  | error e => exact ⟨e, rfl⟩

/-- A port that carries items of a type, or is absent, is read as them. -/
@[simp] theorem portAs_map_seq (t : ItemType) (p : Option (List t.Item)) : portAs t.view (p.map t.seq) = some p := by
  cases p <;> simp [portAs]

/-- The ports of an operation's word stand for its command with what the input port is read as. -/
theorem ofPorts_encode {i : Instr} (h : i.wellFormed = true) (input : Option Items) :
    Op.ofPorts (encode i) input = (portAs (inputType i).view input).map (commandOf i) := by
  rw [Op.ofPorts_legal (decode_encode h), ofInstr_eq_map_commandOf]

/-- A command is the one that its ports name. -/
theorem Op.ofPorts_cw_input (op : Op) : Op.ofPorts op.cw op.input = some op := by
  rcases op.legal_or_illegal with ⟨i, p, h, rfl⟩ | ⟨word, input, rfl⟩
  · rw [commandOf_cw, commandOf_input, ofPorts_encode h, portAs_map_seq, Option.map_some]
  · exact Op.ofPorts_illegal word.1 input word.2

/-- What the ports show of a command determines it. -/
theorem Op.ext_ports {op₁ op₂ : Op} (hcw : op₁.cw = op₂.cw) (hin : op₁.input = op₂.input) : op₁ = op₂ := by
  rw [← Option.some_inj, ← Op.ofPorts_cw_input op₁, ← Op.ofPorts_cw_input op₂, hcw, hin]

/-- `IN_PRESENT` and `IN` of a request are its input. -/
theorem Request.input_eq_ite (q : Request) : (if q.inPresent = true then some q.input else none) = q.op.input := by
  unfold Request.inPresent Request.input
  cases q.op.input <;> rfl

theorem Request.wellTyped_eq_true (q : Request) : q.wellTyped = true := by
  unfold Request.wellTyped Request.cw Request.inPresent Request.input
  rcases q.op.legal_or_illegal with ⟨i, p, h, hop⟩ | ⟨word, input, hop⟩
  · rw [hop, decode_commandOf_cw h, commandOf_input]
    cases p with
    | none => rfl
    | some xs => simp [← ItemType.view_isSome]
  · rw [hop]
    obtain ⟨e, he⟩ := word.decode_eq_error
    rw [Op.cw, he]

/-! ### The response to a command -/

/-- A command has one response, in whatever state it is served next. -/
theorem exists_response (op : Op) :
    ∃ r, ∀ (s : State) (req : Request) (rest : List Request), s.pending = req :: rest → req.op = op →
      step s = .next (s.answer req rest r) := by
  rcases op.legal_or_illegal with ⟨i, p, h, rfl⟩ | ⟨word, input, rfl⟩
  · refine ⟨resultOf i (p.getD []), fun s req rest hp hop => ?_⟩
    have hd : decode req.cw = .ok i := by rw [Request.cw, hop, decode_commandOf_cw h]
    have hv : (inputType i).view req.operand = some (p.getD []) := by
      rw [Request.operand_eq, hop, commandOf_input]
      cases p <;> simp
    rw [step_legal hp hd, exec_eq hp hv]
  · refine ⟨.raise .illegalCommand, fun s req rest hp hop => ?_⟩
    obtain ⟨e, he⟩ := word.decode_eq_error
    have hd : decode req.cw = .error e := by rw [Request.cw, hop, Op.cw, he]
    exact step_illegal hp hd

/-- The transaction function at the ports of a command gives what a step answers the command by. -/
theorem transaction_of_step {cw : CommandWord} {present : Bool} {x : Items} {op : Op} {r : Result}
    (hc : Op.ofPorts cw (if present then some x else none) = some op)
    (hs : ∀ (s : State) (req : Request) (rest : List Request), s.pending = req :: rest → req.op = op →
      step s = .next (s.answer req rest r)) : transaction cw present x = some r := by
  have hstep := hs (State.reset.submit { requester := 0, op := op }) { requester := 0, op := op } [] rfl rfl
  simp [transaction, hc, hstep]

theorem transaction_isSome_of_ports {cw : CommandWord} {present : Bool} {x : Items}
    (h : (Op.ofPorts cw (if present then some x else none)).isSome = true) : (transaction cw present x).isSome = true := by
  obtain ⟨op, hop⟩ := Option.isSome_iff_exists.mp h
  obtain ⟨r, hr⟩ := exists_response op
  rw [transaction_of_step hop hr]
  rfl

theorem Request.transaction_isSome (q : Request) : (transaction q.cw q.inPresent q.input).isSome = true := by
  refine transaction_isSome_of_ports ?_
  rw [q.input_eq_ite, Request.cw, Op.ofPorts_cw_input]
  rfl

/-- The result of a request: the transaction function (00_scope.md R11) where it is total. -/
def Request.result (q : Request) : Result :=
  (transaction q.cw q.inPresent q.input).get q.transaction_isSome

theorem Request.transaction_eq_result (q : Request) : transaction q.cw q.inPresent q.input = some q.result :=
  (Option.some_get _).symm

/-- A step answers the next command by its result. -/
theorem step_eq_answer {s : State} {req : Request} {rest : List Request} (hp : s.pending = req :: rest) :
    step s = .next (s.answer req rest req.result) := by
  obtain ⟨r, hr⟩ := exists_response req.op
  have hports : Op.ofPorts req.cw (if req.inPresent = true then some req.input else none) = some req.op := by
    rw [req.input_eq_ite, Request.cw, Op.ofPorts_cw_input]
  have hresult : some req.result = some r := req.transaction_eq_result.symm.trans (transaction_of_step hports hr)
  rw [Option.some_inj.mp hresult]
  exact hr s req rest hp rfl

/-- A request has the result of its command, whichever host asks. -/
theorem Request.result_congr {q₁ q₂ : Request} (h : q₁.op = q₂.op) : q₁.result = q₂.result := by
  refine Option.some_inj.mp ?_
  rw [← q₁.transaction_eq_result, ← q₂.transaction_eq_result]
  unfold Request.cw Request.inPresent Request.input
  rw [h]

/-- The answer can be read back from the state it leaves. -/
theorem answer_inj {s : State} {req : Request} {rest : List Request} {r₁ r₂ : Result} :
    s.answer req rest r₁ = s.answer req rest r₂ ↔ r₁ = r₂ := by
  refine ⟨fun h => ?_, congrArg _⟩
  have hdelivered : s.delivered ++ [⟨req.requester, r₁⟩] = s.delivered ++ [⟨req.requester, r₂⟩] :=
    congrArg State.delivered h
  simpa using hdelivered

theorem step_eq_answer_iff {s : State} {req : Request} {rest : List Request} {r : Result} (hp : s.pending = req :: rest) :
    step s = .next (s.answer req rest r) ↔ req.result = r := by
  rw [step_eq_answer hp, Host.Outcome.next.injEq, answer_inj]

/-- The transaction of an operation's word: the operation's answer to what the input port is read as. -/
theorem transaction_encode {i : Instr} (h : i.wellFormed = true) {present : Bool} {x : Items}
    {p : Option (List (inputType i).Item)} (hp : portAs (inputType i).view (if present then some x else none) = some p) :
    transaction (encode i) present x = some (resultOf i (p.getD [])) := by
  have hc : Op.ofPorts (encode i) (if present then some x else none) = some (commandOf i p) := by
    rw [ofPorts_encode h, hp, Option.map_some]
  refine transaction_eq hc (decode_commandOf_cw h p) (exec_eq_transact i) ?_
  rw [commandOf_input]
  cases p <;> simp

/-- A present input of the operation's type is answered as the operation computes. -/
theorem transaction_seq {i : Instr} (h : i.wellFormed = true) (xs : List (inputType i).Item) :
    transaction (encode i) true ((inputType i).seq xs) = some (resultOf i xs) :=
  transaction_encode h (p := some xs) (by simp [portAs])

/-- An operation that completes on some items gives its output to the command that carries them. -/
theorem gives_of_resultOf {cw : CommandWord} {i : Instr} {out : Items} (hd : decode cw = .ok i)
    (xs : List (inputType i).Item) (h : resultOf i xs = .complete out) : Gives cw ((inputType i).seq xs) out := by
  rw [Gives, ← encode_of_decode hd, transaction_seq (wellFormed_of_decode hd), h]

end Sys2Proof.Machine

/-! PROOFS. The machine as a whole: a step answers the next command by its result, which the ports of the command determine
(00_scope.md R10, R11; 20_memory.md R51, R56; 70_reset_and_hazards.md R240). -/

namespace Sys2Proof.Machine

/-! ### What every step keeps -/

theorem ok_notMem_conditionsOf (i : Instr) : .ok ∉ conditionsOf i := by
  cases i <;> simp [conditionsOf]

/-- What an operation may answer is a legal response: its output has an item type exactly when it completes. -/
theorem AllowedResult.legal {i : Instr} {xs : List (inputType i).Item} {r : Result} (h : AllowedResult i xs r) :
    r.legal = true := by
  rcases h with ⟨out, rfl, htype, -⟩ | ⟨st, hst, rfl⟩
  · have hne : out ≠ .empty := by
      rintro rfl
      cases htype
    simp [Result.legal, hne]
  · have hst : st ≠ .ok := by
      rintro rfl
      exact ok_notMem_conditionsOf i hst
    simp [Result.legal, hst]

/-- The result of a request is one its operation may give, or ILLEGAL_COMMAND. -/
theorem Request.result_legal (q : Request) : q.result.legal = true := by
  have hp : (State.reset.submit q).pending = [q] := rfl
  have hstep := step_eq_answer hp
  cases hd : decode q.cw with
  | ok i =>
    rw [step_legal hp hd] at hstep
    obtain ⟨req, rest, xs, hpending, -, hanswer⟩ := exec_next hstep
    cases hp.symm.trans hpending
    rw [answer_inj.mp hanswer]
    exact (resultOf_allowed i xs).legal
  | error e =>
    rw [step_illegal hp hd, Host.Outcome.next.injEq, answer_inj] at hstep
    rw [← hstep]
    decide

theorem State.wellTyped_eq_true (s : State) : s.wellTyped = true :=
  List.all_eq_true.mpr fun q _ => q.wellTyped_eq_true

/-- All a step can do: nothing when idle, else answer the next command. -/
theorem step_cases (s : State) :
    (s.pending = [] ∧ step s = .next s) ∨
      ∃ req rest, s.pending = req :: rest ∧ step s = .next (s.answer req rest req.result) := by
  cases hp : s.pending with
  | nil => exact .inl ⟨rfl, step_idle hp⟩
  | cons req rest => exact .inr ⟨req, rest, rfl, step_eq_answer hp⟩

/-- Settles O9: the types of what is outstanding hold of every state, and a step delivers one more legal response. -/
theorem stepKeepsInv : Obligations.StepKeepsInv := by
  rintro s t ⟨-, hlegal⟩ hstep
  refine ⟨t.wellTyped_eq_true, ?_⟩
  rcases step_cases s with ⟨-, hidle⟩ | ⟨req, rest, -, hanswer⟩
  · cases hidle.symm.trans hstep
    exact hlegal
  · cases hanswer.symm.trans hstep
    intro a ha
    rcases List.mem_append.mp ha with hold | hnew
    · exact hlegal a hold
    · rw [List.mem_singleton.mp hnew]
      exact req.result_legal

/-- Settles O10, by all a step can do. -/
theorem everyCommandCompletes : Obligations.EveryCommandCompletes := by
  intro s
  exact (step_cases s).imp id fun ⟨req, rest, hp, hs⟩ => ⟨req, rest, req.result, hp, hs⟩

/-! ### The response is a function of the command -/

/-- Requests that show the same at the ports carry the same command. -/
theorem Request.op_eq_of_ports {q₁ q₂ : Request} (hcw : q₁.cw = q₂.cw) (hpresent : q₁.inPresent = q₂.inPresent)
    (hin : q₁.inPresent = true → q₁.input = q₂.input) : q₁.op = q₂.op := by
  refine Op.ext_ports hcw ?_
  rw [← q₁.input_eq_ite, ← q₂.input_eq_ite, ← hpresent]
  split
  · rw [hin ‹_›]
  · rfl

/-- Settles O11: the ports determine the command, and the command its result. -/
theorem responseDependsOnCommandAlone : Obligations.ResponseDependsOnCommandAlone := by
  intro s₁ s₂ t₁ q₁ q₂ rest₁ rest₂ hp₁ hp₂ hcw hpresent hin hstep
  have hresult : q₁.result = q₂.result := Request.result_congr (Request.op_eq_of_ports hcw hpresent hin)
  rw [step_eq_answer hp₁, Host.Outcome.next.injEq] at hstep
  exact ⟨q₁.result, hstep.symm, by rw [step_eq_answer hp₂, hresult]⟩

/-- Settles O12: both sides say that the request has this result. -/
theorem transactionIsTheStep : Obligations.TransactionIsTheStep := by
  intro s req rest r hp
  rw [step_eq_answer_iff hp, req.transaction_eq_result, Option.some_inj]

/-! ### Runs -/

/-- The response that a request is handed. -/
def Request.response (q : Request) : Response :=
  { requester := q.requester, result := q.result }

/-- A run goes on from the state its first step answers. -/
theorem run_succ (M : Host.Core) {s t : M.State} (k : Nat) (h : M.step s = .next t) : M.run (k + 1) s = M.run k t := by
  rw [Host.Core.run, h]

/-- As many steps as there are outstanding commands deliver the response of each, in their order. -/
theorem run_pending (s : State) : Sys2Proof.core.run s.pending.length s =
    .next { pending := [], delivered := s.delivered ++ s.pending.map Request.response } := by
  obtain ⟨pending, delivered⟩ := s
  induction pending generalizing delivered with
  | nil => simp [Host.Core.run]
  | cons q rest ih =>
    have hstep : Sys2Proof.core.step ⟨q :: rest, delivered⟩ = .next ⟨rest, delivered ++ [q.response]⟩ :=
      step_eq_answer (s := ⟨q :: rest, delivered⟩) rfl
    refine (run_succ Sys2Proof.core rest.length hstep).trans ?_
    simpa using ih (delivered ++ [q.response])

/-- Settles O13: the responses are those of the run. -/
theorem outstandingAnsweredInOrder : Obligations.OutstandingAnsweredInOrder := by
  intro s
  refine ⟨s.pending.map Request.response, run_pending s, ?_⟩
  rw [List.forall₂_map_right_iff, List.forall₂_same]
  exact fun q _ => ⟨rfl, q.transaction_eq_result⟩

/-- The responses to a host's commands are the host's responses. -/
theorem filter_map_response (qs : List Request) (k : Nat) :
    (qs.map Request.response).filter (fun a => a.requester = k)
      = (qs.filter fun q => q.requester = k).map Request.response :=
  List.filter_map

/-- Settles O14: what a host has been handed at the end of a run depends on its own commands alone. -/
theorem interleavingIsInvisible : Obligations.InterleavingIsInvisible := by
  intro s₁ s₂ k hpending hdelivered
  refine ⟨_, _, run_pending s₁, run_pending s₂, ?_⟩
  simp only [List.filter_append, filter_map_response, hpending, hdelivered]

/-! ### Conditions and outputs, for every operation -/

/-- Settles O15: what an operation may answer, and for each of its conditions a command that meets it. -/
theorem conditionMatrix : Obligations.ConditionMatrix := by
  constructor
  · intro i s t h
    obtain ⟨req, rest, xs, hp, -, rfl⟩ := exec_next h
    refine ⟨req, rest, _, hp, rfl, ?_⟩
    rcases resultOf_allowed i xs with ⟨out, hr, -, -⟩ | ⟨st, hst, hr⟩
    · exact .inl (by rw [hr, Result.complete_status])
    · exact .inr (by rwa [hr, Result.raise_status])
  · intro i st hst
    obtain ⟨xs, hxs⟩ := exists_raising hst
    have hview : (inputType i).view (Request.mk 0 (commandOf i (some xs))).operand = some xs := by
      simp [Request.operand_eq]
    refine ⟨{ pending := [⟨0, commandOf i (some xs)⟩], delivered := [] }, ⟨0, commandOf i (some xs)⟩, rfl,
      fun hwf => decode_commandOf_cw hwf (some xs), ?_⟩
    rw [exec_eq rfl hview, hxs]

/-- Settles O16, by what an operation may answer. -/
theorem outputTypeAndLength : Obligations.OutputTypeAndLength := by
  intro i s t h
  obtain ⟨req, rest, xs, hp, hv, rfl⟩ := exec_next h
  refine ⟨req, rest, _, hp, rfl, ?_⟩
  have hlength : outputLength i req.operand = outputLength i ((inputType i).seq xs) := by
    rcases ItemType.eq_of_view hv with hx | ⟨hx, rfl⟩
    · rw [hx]
    · rw [hx, outputLength_empty]
  rcases resultOf_allowed i xs with ⟨out, hr, htype, hlen⟩ | ⟨st, hst, hr⟩
  · rw [hr, hlength]
    exact ⟨fun _ => ⟨htype, hlen⟩, fun hne => absurd rfl hne⟩
  · rw [hr]
    exact ⟨fun hok => absurd (hok ▸ hst) (ok_notMem_conditionsOf i), fun _ => rfl⟩

/-- Settles O17: an absent input is read as the empty sequence. -/
theorem absentInputIsEmpty : Obligations.AbsentInputIsEmpty := by
  constructor
  · intro i s req rest hp habsent
    have hview : (inputType i).view req.operand = some [] := by rw [Request.operand_absent habsent, ItemType.view_empty]
    rw [exec_eq hp hview, resultOf_nil]
  · intro cw i x hd
    rw [← encode_of_decode hd, transaction_encode (wellFormed_of_decode hd) (p := none) rfl]
    exact congrArg some (resultOf_nil i)

/-! ### The ports -/

/-- Settles O58: a word of an operation stands with what its port can be read as, another word with anything. -/
theorem commandsAreTyped : Obligations.CommandsAreTyped := by
  refine ⟨fun req => ⟨req.wellTyped_eq_true, req.op.ofPorts_cw_input⟩, fun cw i x hd => ⟨?_, fun htype => ?_⟩,
    fun cw => ?_, fun cw x hillegal => ?_⟩
  · rw [Op.ofPorts_legal hd, ofInstr_eq_map_commandOf, Option.isSome_map, portAs, Option.isSome_map, ItemType.view_isSome]
  · obtain ⟨xs, rfl⟩ := ItemType.exists_seq_of_itemType htype
    exact ⟨commandOf i (some xs), by rw [commandOf_cw, encode_of_decode hd], commandOf_input i _⟩
  · cases hd : decode cw with
    | ok i => exact ⟨commandOf i none, by rw [commandOf_cw, encode_of_decode hd], commandOf_input i _⟩
    | error e => exact ⟨.illegal ⟨cw, by rw [hd]; rfl⟩ none, rfl, rfl⟩
  · cases hd : decode cw with
    | ok i => exact absurd ⟨i, hd⟩ hillegal
    | error e => exact ⟨.illegal ⟨cw, by rw [hd]; rfl⟩ x, rfl, rfl⟩

/-! ### Fetching, stops and reset -/

/-- Settles O5: the step looks only at the word of the next command. -/
theorem stepRunsDecoded : Obligations.StepRunsDecoded := fun _ _ _ _ hp hd => step_legal hp hd

/-- Settles O6: the word handed over stands first, with the operation it encodes. -/
theorem fetchedWordRuns : Obligations.FetchedWordRuns := by
  intro s i hwf
  have hword : BitVec.ofNat 64 ((encode i).toNat % 2 ^ 64) = encode i := by
    rw [Nat.mod_eq_of_lt (encode i).isLt, BitVec.ofNat_toNat, BitVec.setWidth_eq]
  have hport : Op.ofPorts (BitVec.ofNat 64 ((encode i).toNat % 2 ^ 64)) none = some (commandOf i none) := by
    rw [hword, ofPorts_encode hwf, portAs, Option.map_some]
  exact step_legal (State.withFetchWord_pending hport) (decode_commandOf_cw hwf none)

/-- Settles O7: reset leaves both lists empty, and a step with nothing outstanding is idle. -/
theorem resetIsIdle : Obligations.ResetIsIdle :=
  ⟨State.reset_pending, State.reset_delivered, step_idle State.reset_pending⟩

/-- Settles O8: nothing was delivered. -/
theorem resetMeetsInv : Obligations.ResetMeetsInv :=
  ⟨State.reset.wellTyped_eq_true, fun _ h => absurd h List.not_mem_nil⟩

/-- The six statuses (60_exceptions.md R210). -/
def statuses : List Status := [.ok, .outOfRange, .illegalCommand, .badLength, .badSymbol, .badCode]

theorem mem_statuses (st : Status) : st ∈ statuses := by
  cases st <;> decide

/-- Settles O18, by comparing the codes of the six statuses. -/
theorem statusCodes : Obligations.StatusCodes := by
  refine ⟨rfl, rfl, rfl, rfl, rfl, rfl, fun a b h => ?_⟩
  have hinj : ∀ a ∈ statuses, ∀ b ∈ statuses, a.code = b.code → a = b := by decide
  exact hinj a (mem_statuses a) b (mem_statuses b) h

/-- Settles O19, by the two ways a transaction can stop. -/
theorem illTypedOperandRefused : Obligations.IllTypedOperandRefused := by
  constructor
  · intro i s req rest hp hpresent htype
    have hview : (inputType i).view req.operand = none := by
      refine Option.not_isSome_iff_eq_none.mp ?_
      rw [Request.operand_present hpresent, ItemType.view_isSome, htype]
      exact Bool.false_ne_true
    rw [exec_eq_transact, transact_illTyped hp hview]
  · intro i s hp
    rw [exec_eq_transact, transact_noCommand hp]

/-- Settles O20: the command is the next one of either state, and has one result. -/
theorem resetAbandonsInFlight : Obligations.ResetAbandonsInFlight := by
  intro s req r
  refine ⟨s.applyReset_pending, s.applyReset_delivered, ?_⟩
  have hfresh : step (State.reset.submit req) = .next (State.reset.answer req [] r) ↔ req.result = r :=
    step_eq_answer_iff (s := State.reset.submit req) rfl
  have hreset : step (s.applyReset.submit req) = .next (s.answer req [] r) ↔ req.result = r :=
    step_eq_answer_iff (s := s.applyReset.submit req) rfl
  rw [hfresh, hreset]

/-- Settles O21: the entries of the alphabet against the column "code out" of R170. -/
theorem romTables : Obligations.RomTables :=
  ⟨rfl, rfl, by decide⟩

end Sys2Proof.Machine

/-! PROOFS. The codecs against each other: what is encoded and then decoded, or decoded and then encoded, comes back
(20_memory.md section 2, 40_fixed_width.md section 4, 41_bit_vector.md section 4, 42_legacy_format.md section 1). Each pair of
layouts is inverse as functions first; the transactions only carry it. -/

namespace Sys2Proof.Machine

/-! ### Big-endian bytes and numbers are inverse (20_memory.md R42, R43) -/

/-- The bytes of a concatenation: those of the more significant part, then those of the less significant one. -/
theorem bigEndianBytes_append {k m : Nat} (x : BitVec (8 * k)) (y : BitVec (8 * m)) :
    bigEndianBytes (x ++ y) = bigEndianBytes x ++ bigEndianBytes y := by
  have hlen : (8 * k + 8 * m) / 8 = k + m := by omega
  unfold bigEndianBytes
  rw [hlen, Nat.mul_div_cancel_left k (by decide), Nat.mul_div_cancel_left m (by decide), List.range_add,
    List.map_append, List.map_map]
  refine congrArg₂ _ (List.map_congr_left fun j hj => ?_) (List.map_congr_left fun j hj => ?_)
  · have hj : j < k := List.mem_range.mp hj
    have hstart : 8 * k + 8 * m - 8 - 8 * j - 8 * m = 8 * k - 8 - 8 * j := by omega
    rw [BitVec.extractLsb'_append_eq_of_le (by omega), hstart]
  · have hj : j < m := List.mem_range.mp hj
    have hstart : 8 * k + 8 * m - 8 - 8 * (k + j) = 8 * m - 8 - 8 * j := by omega
    rw [Function.comp_apply, hstart, BitVec.extractLsb'_append_eq_of_add_le (by omega)]

theorem bigEndianBytes_byte (b : Byte) : bigEndianBytes b = [b] := by
  simp [bigEndianBytes]

theorem bigEndianBytes_snoc {k : Nat} (x : BitVec (8 * k)) (b : Byte) : bigEndianBytes (x ++ b) = bigEndianBytes x ++ [b] :=
  (bigEndianBytes_append (m := 1) x b).trans (congrArg _ (bigEndianBytes_byte b))

/-- The bytes of a word make it up again: its last byte below those before it. -/
theorem bigEndianWord_bigEndianBytes {w : Nat} (hw : 8 ∣ w) (v : BitVec w) : bigEndianWord w (bigEndianBytes v) = v := by
  obtain ⟨k, rfl⟩ := hw
  induction k with
  | zero => exact (BitVec.eq_nil _).trans (BitVec.eq_nil v).symm
  | succ k ih =>
    have hv : v = v.extractLsb' 8 (8 * k) ++ v.extractLsb' 0 8 :=
      (BitVec.extractLsb'_append_extractLsb' (w := 8 * k) (len := 8)).symm
    rw [hv, bigEndianBytes_snoc]
    exact bigEndianWord_snoc (ih _) _

/-- Bytes that fill a word are the bytes of the word they make. -/
theorem bigEndianBytes_bigEndianWord {w : Nat} {bs : List Byte} (h : w = 8 * bs.length) :
    bigEndianBytes (bigEndianWord w bs) = bs := by
  induction bs using List.reverseRecOn generalizing w with
  | nil =>
    subst h
    rfl
  | append_singleton bs b ih =>
    obtain rfl : w = 8 * bs.length + 8 := by rw [h, List.length_append, List.length_singleton, Nat.mul_add]
    rw [bigEndianWord_snoc rfl b, bigEndianBytes_snoc, ih rfl]

/-! ### Sequences of words (40_fixed_width.md R103, R104) -/

theorem takeWords_encodeWords {w : Nat} (hw : 8 ∣ w) (ws : List (BitVec w)) :
    takeWords w ws.length (encodeWords ws) = ws := by
  induction ws with
  | nil => rfl
  | cons v ws ih =>
    rw [encodeWords_cons, List.length_cons, takeWords, List.take_left' (bigEndianBytes_length v),
      List.drop_left' (bigEndianBytes_length v), bigEndianWord_bigEndianBytes hw, ih]

theorem decodeWords_encodeWords {w : Nat} (hw : 8 ∣ w) (hpos : 0 < w) (ws : List (BitVec w)) :
    decodeWords w (encodeWords ws) = ws := by
  have hbytes : 0 < w / 8 := Nat.div_pos (Nat.le_of_dvd hpos hw) (by decide)
  rw [decodeWords, encodeWords_length, Nat.mul_div_cancel _ hbytes, takeWords_encodeWords hw]

/-- Words taken from bytes and encoded again are those bytes, block by block. -/
theorem encodeWords_takeWords {w n : Nat} (hw : 8 ∣ w) {bs : List Byte} (h : n * (w / 8) ≤ bs.length) :
    encodeWords (takeWords w n bs) = bs.take (n * (w / 8)) := by
  induction n generalizing bs with
  | zero => simp [takeWords]
  | succ n ih =>
    rw [Nat.succ_mul] at h ⊢
    have hblock : w = 8 * (bs.take (w / 8)).length := by
      rw [List.length_take_of_le (by omega), Nat.mul_div_cancel' hw]
    have hrest : n * (w / 8) ≤ (bs.drop (w / 8)).length := by
      rw [List.length_drop]
      omega
    rw [takeWords, encodeWords_cons, bigEndianBytes_bigEndianWord hblock, ih hrest, Nat.add_comm, List.take_add]

theorem encodeWords_decodeWords {w : Nat} (hw : 8 ∣ w) (bs : List Byte) :
    encodeWords (decodeWords w bs) = bs.take (bs.length / (w / 8) * (w / 8)) :=
  encodeWords_takeWords hw (Nat.div_mul_le_self _ _)

/-! ### The fixed-width codec -/

/-- The words `enc` and `dec` are the two directions of one kind of item: `w` bits wide, carried as `seq` (R100 to R104). -/
structure FixedWidthPair (w : Nat) (seq : List (BitVec w) → Items) (enc dec : CommandWord) : Prop where
  gives_enc : ∀ ws, Gives enc (seq ws) (.bytes (encodeWords ws))
  gives_dec : ∀ bs, Gives dec (.bytes bs) (seq (decodeWords w bs))

theorem FixedWidthPair.decode_of_encode {w : Nat} {seq : List (BitVec w) → Items} {enc dec : CommandWord}
    (h : FixedWidthPair w seq enc dec) (hw : 8 ∣ w) (hpos : 0 < w) (ws : List (BitVec w)) :
    ∃ b, Gives enc (seq ws) b ∧ Gives dec b (seq ws) := by
  have hdec := h.gives_dec (encodeWords ws)
  rw [decodeWords_encodeWords hw hpos] at hdec
  exact ⟨_, h.gives_enc ws, hdec⟩

theorem FixedWidthPair.encode_of_decode {w : Nat} {seq : List (BitVec w) → Items} {enc dec : CommandWord}
    (h : FixedWidthPair w seq enc dec) (hw : 8 ∣ w) (bs : List Byte) :
    ∃ x, Gives dec (.bytes bs) x ∧ Gives enc x (.bytes (bs.take (bs.length / (w / 8) * (w / 8)))) := by
  have henc := h.gives_enc (decodeWords w bs)
  rw [encodeWords_decodeWords hw] at henc
  exact ⟨_, h.gives_dec bs, henc⟩

theorem fixedWidthPair_i16 : FixedWidthPair 16 .w16s 0x0000000000000000 0x0800000000000000 where
  gives_enc ws := gives_of_resultOf encI16BigEndian.1 ws rfl
  gives_dec bs := gives_of_resultOf decI16BigEndian.1 bs rfl

theorem fixedWidthPair_i32 : FixedWidthPair 32 .w32s 0x0100000000000000 0x0900000000000000 where
  gives_enc ws := gives_of_resultOf encI32BigEndian.1 ws rfl
  gives_dec bs := gives_of_resultOf decI32BigEndian.1 bs rfl

theorem fixedWidthPair_i64 : FixedWidthPair 64 .w64s 0x0200000000000000 0x0A00000000000000 where
  gives_enc ws := gives_of_resultOf encI64BigEndian.1 ws rfl
  gives_dec bs := gives_of_resultOf decI64BigEndian.1 bs rfl

theorem fixedWidthPair_f32 : FixedWidthPair 32 .w32s 0x0300000000000000 0x0B00000000000000 where
  gives_enc ws := gives_of_resultOf encF32BigEndian.1 ws rfl
  gives_dec bs := gives_of_resultOf decF32BigEndian.1 bs rfl

theorem fixedWidthPair_f64 : FixedWidthPair 64 .w64s 0x0400000000000000 0x0C00000000000000 where
  gives_enc ws := gives_of_resultOf encF64BigEndian.1 ws rfl
  gives_dec bs := gives_of_resultOf decF64BigEndian.1 bs rfl

/-- Settles O32: the two laws of a pair, for each of the five pairs. -/
theorem fixedWidthRoundTrip : Obligations.FixedWidthRoundTrip :=
  ⟨fixedWidthPair_i16.decode_of_encode (by decide) (by decide), fixedWidthPair_i32.decode_of_encode (by decide) (by decide),
    fixedWidthPair_i64.decode_of_encode (by decide) (by decide), fixedWidthPair_f32.decode_of_encode (by decide) (by decide),
    fixedWidthPair_f64.decode_of_encode (by decide) (by decide), fun bs =>
    ⟨fixedWidthPair_i16.encode_of_decode (by decide) bs, fixedWidthPair_i32.encode_of_decode (by decide) bs,
      fixedWidthPair_i64.encode_of_decode (by decide) bs, fixedWidthPair_f32.encode_of_decode (by decide) bs,
      fixedWidthPair_f64.encode_of_decode (by decide) bs⟩⟩

/-! ### Bytes read at another width (20_memory.md section 2) -/

/-- Two words and the word of twice the width that they make have the same bytes. -/
theorem encodeWords_halves (x y : W16) : encodeWords [x, y] = encodeWords [(x ++ y : W32)] := by
  have hbytes : bigEndianBytes (x ++ y) = bigEndianBytes x ++ bigEndianBytes y := bigEndianBytes_append (k := 2) (m := 2) x y
  simp [hbytes]

theorem gives_midDec_zero (B0 B1 B2 B3 : Byte) :
    Gives 0x2800000000000000 (.bytes [B0, B1, B2, B3]) (.w32s [B1 ++ B0 ++ B3 ++ B2]) :=
  gives_of_resultOf (midDecWord.1 0) [B0, B1, B2, B3] (midDecode_word le_rfl)

/-- Settles O33: both readings are decodings of what the other grouping encodes. -/
theorem mixedWidthRegroups : Obligations.MixedWidthRegroups := by
  refine ⟨fun w => ?_, fun x y => ?_, fun B0 B1 B2 B3 => ⟨?_, gives_midDec_zero B0 B1 B2 B3⟩⟩
  · have hw : (w.extractLsb' 16 16 ++ w.extractLsb' 0 16 : W32) = w :=
      BitVec.extractLsb'_append_extractLsb' (w := 16) (len := 16)
    have h16 := fixedWidthPair_i16.gives_dec (encodeWords [w])
    have h64 := fixedWidthPair_i64.gives_dec (encodeWords [w])
    rw [← hw, ← encodeWords_halves, decodeWords_encodeWords (by decide) (by decide), encodeWords_halves, hw] at h16
    have hnone : decodeWords 64 (encodeWords [w]) = [] := List.eq_nil_of_length_eq_zero (by simp)
    rw [hnone] at h64
    exact ⟨_, fixedWidthPair_i32.gives_enc [w], h16, h64⟩
  · have h32 := fixedWidthPair_i32.gives_dec (encodeWords [x, y])
    rw [encodeWords_halves, decodeWords_encodeWords (by decide) (by decide), ← encodeWords_halves] at h32
    exact ⟨_, fixedWidthPair_i16.gives_enc [x, y], h32⟩
  · have h32 := fixedWidthPair_i32.gives_dec [B0, B1, B2, B3]
    have hword : decodeWords 32 [B0, B1, B2, B3] = [B0 ++ B1 ++ B2 ++ B3] := by simp [decodeWords_w32]
    rwa [hword] at h32

/-! ### The bit-vector codec (41_bit_vector.md section 4) -/

/-- The two orders list the same bits from opposite ends. -/
theorem bitsOf_msbFirst_eq_reverse (n : Nat) {w : Nat} (v : BitVec w) :
    bitsOf .msbFirst n v = (bitsOf .lsbFirst n v).reverse := by
  rw [bitsOf_msbFirst, bitsOf_lsbFirst]
  apply List.ext_getElem
  · simp
  · intro i hi _
    simp

/-- The value of the low `n` bits of a pattern (R137). -/
theorem natOfBitsLsb_bitsOf (n : Nat) {w : Nat} (v : BitVec w) :
    natOfBitsLsb (bitsOf .lsbFirst n v) = v.toNat % 2 ^ n := by
  apply Nat.eq_of_testBit_eq
  intro i
  rw [testBit_natOfBitsLsb, bitsOf_lsbFirst, Nat.testBit_mod_two_pow, BitVec.testBit_toNat]
  by_cases hi : i < n <;> simp [List.getD_eq_getElem?_getD, hi]

/-- In one order, the bits of a pattern have its value modulo `2 ^ n`. -/
theorem natOfBits_bitsOf (o : BitOrder) (n : Nat) {w : Nat} (v : BitVec w) :
    natOfBits o (bitsOf o n v) = v.toNat % 2 ^ n := by
  rw [← natOfBitsLsb_bitsOf]
  cases o with
  | msbFirst => rw [natOfBits, bitsOf_msbFirst_eq_reverse, List.reverse_reverse]
  | lsbFirst => rfl

/-- In different orders, the bits of a pattern are read from the other end. -/
theorem natOfBits_bitsOf_of_ne {o o' : BitOrder} (h : o ≠ o') (n : Nat) {w : Nat} (v : BitVec w) :
    natOfBits o' (bitsOf o n v) = natOfBitsLsb (bitsOf .msbFirst n v) := by
  cases o <;> cases o'
  case msbFirst.lsbFirst => rfl
  case lsbFirst.msbFirst => rw [bitsOf_msbFirst_eq_reverse, natOfBits]
  all_goals exact absurd rfl h

theorem gives_b2vB (o : BitOrder) {n : Nat} (b : Byte) (h1 : 1 ≤ n) (h8 : n ≤ 8) :
    Gives (encode (.b2vB o n)) (.bytes [b]) (.bits (bitsOf o n b)) :=
  gives_of_resultOf (i := .b2vB o n) (decode_encode (decide_eq_true (by omega))) [b] (toBits_singleton o b h1 h8)

theorem gives_b2vW (o : BitOrder) {n : Nat} (v : W32) (h1 : 1 ≤ n) (h32 : n ≤ 32) :
    Gives (encode (.b2vW o n)) (.w32s [v]) (.bits (bitsOf o n v)) :=
  gives_of_resultOf (i := .b2vW o n) (decode_encode (decide_eq_true (by omega))) [v] (toBits_singleton o v h1 h32)

theorem gives_v2bB (o : BitOrder) {v : List Bit} (h1 : 1 ≤ v.length) (h8 : v.length ≤ 8) :
    Gives (encode (.v2bB o)) (.bits v) (.bytes [BitVec.ofNat 8 (natOfBits o v)]) :=
  gives_of_resultOf (i := .v2bB o) (decode_encode rfl) v (fromBits_value o .bytes h1 h8)

theorem gives_v2bW (o : BitOrder) {v : List Bit} (h1 : 1 ≤ v.length) (h32 : v.length ≤ 32) :
    Gives (encode (.v2bW o)) (.bits v) (.w32s [BitVec.ofNat 32 (natOfBits o v)]) :=
  gives_of_resultOf (i := .v2bW o) (decode_encode rfl) v (fromBits_value o .w32s h1 h32)

/-- Settles O38, by the value of the bits of a pattern in one order and in different orders. -/
theorem bitVectorRoundTrip : Obligations.BitVectorRoundTrip := by
  refine ⟨fun o n b h1 h8 => ?_, fun o n w h1 h32 => ?_, fun o o' n b hne h1 h8 => ?_⟩
  · refine ⟨_, gives_b2vB o b h1 h8, ?_⟩
    rw [← natOfBits_bitsOf o]
    exact gives_v2bB o (by rwa [bitsOf_length]) (by rwa [bitsOf_length])
  · refine ⟨_, gives_b2vW o w h1 h32, ?_⟩
    rw [← natOfBits_bitsOf o]
    exact gives_v2bW o (by rwa [bitsOf_length]) (by rwa [bitsOf_length])
  · refine ⟨_, _, gives_b2vB o b h1 h8, gives_v2bB o' (by rwa [bitsOf_length]) (by rwa [bitsOf_length]), fun i => ?_⟩
    rw [natOfBits_bitsOf_of_ne hne, BitVec.getLsbD_ofNat, testBit_natOfBitsLsb, bitsOf_msbFirst]
    by_cases hi : i < n
    · have hi8 : i < 8 := by omega
      simp [List.getD_eq_getElem?_getD, hi, hi8]
    · simp [List.getD_eq_getElem?_getD, hi]

/-! ### Middle-endian words (42_legacy_format.md section 1) -/

theorem gives_midEnc (v : W32) : Gives 0x2000000000000000 (.w32s [v]) (.bytes (middleEndianBytes v)) :=
  gives_of_resultOf midEncBytes.1 [v] rfl

/-- A 32-bit word is the concatenation of its four bytes. -/
theorem append_bytes_w32 (v : W32) :
    v.extractLsb' 24 8 ++ v.extractLsb' 16 8 ++ v.extractLsb' 8 8 ++ v.extractLsb' 0 8 = v := by
  rw [← bigEndianWord_four]
  exact bigEndianWord_bigEndianBytes (by decide) v

/-- The middle-endian bytes of a concatenation: the two bytes of each half exchanged. -/
theorem middleEndianBytes_append (B0 B1 B2 B3 : Byte) : middleEndianBytes (B1 ++ B0 ++ B3 ++ B2) = [B0, B1, B2, B3] := by
  have hbytes : bigEndianBytes (B1 ++ B0 ++ B3 ++ B2) = [B1, B0, B3, B2] := by
    rw [← bigEndianWord_four]
    exact bigEndianBytes_bigEndianWord rfl
  change [_, _, _, _] = [_, _, _, _] at hbytes
  simp only [List.cons.injEq, and_true] at hbytes
  obtain ⟨h1, h0, h3, h2⟩ := hbytes
  exact congrArg₂ List.cons h0 (congrArg₂ List.cons h1 (congrArg₂ List.cons h2 (congrArg₂ List.cons h3 rfl)))

/-- Settles O41: the bytes of a word make it up, and a concatenation has its bytes. -/
theorem middleEndianBijection : Obligations.MiddleEndianBijection := by
  refine ⟨fun v => ⟨_, gives_midEnc v, ?_⟩, fun B0 B1 B2 B3 => ⟨_, gives_midDec_zero B0 B1 B2 B3, ?_⟩⟩
  · have hdec := gives_midDec_zero (v.extractLsb' 16 8) (v.extractLsb' 24 8) (v.extractLsb' 0 8) (v.extractLsb' 8 8)
    rw [append_bytes_w32] at hdec
    exact hdec
  · have henc := gives_midEnc (B1 ++ B0 ++ B3 ++ B2)
    rw [middleEndianBytes_append] at henc
    exact henc

end Sys2Proof.Machine

/-! PROOFS. The laws of the VAX conversions and of Radix-50 (42_legacy_format.md sections 2 and 3), on the fields of a
pattern and on the symbol values of a code. -/

namespace Sys2Proof.Machine

/-! ### VAX patterns and their bytes -/

/-- A 64-bit word is the concatenation of its eight bytes. -/
theorem append_bytes_w64 (v : W64) :
    v.extractLsb' 56 8 ++ v.extractLsb' 48 8 ++ v.extractLsb' 40 8 ++ v.extractLsb' 32 8 ++ v.extractLsb' 24 8
      ++ v.extractLsb' 16 8 ++ v.extractLsb' 8 8 ++ v.extractLsb' 0 8 = v := by
  rw [← bigEndianWord_eight]
  exact bigEndianWord_bigEndianBytes (by decide) v

/-- The VAX pattern at the start of its own bytes (R161). -/
theorem vaxWord_vaxLayout (V : W64) : vaxWord Config.vaxHalfOrder (vaxLayout V) 0 = V := by
  rw [vaxWord_eq_append]
  exact append_bytes_w64 V

theorem gives_vaxdDec (V : W64) : Gives 0x2900000000000000 (.bytes (vaxLayout V)) (.w64s [ieeeOfVax V]) := by
  have hdec : vaxDecode 0 (vaxLayout V) = .complete (.w64s [ieeeOfVax V]) := by
    rw [vaxDecode_pattern le_rfl, vaxWord_vaxLayout]
  exact gives_of_resultOf (vaxDecPattern.1 0) (vaxLayout V) hdec

/-! ### The three low fraction bits (R163) -/

/-- A fraction is the part that is kept and the three bits that are discarded. -/
theorem append_fraction (S : BitVec 1) (e : BitVec 8) (g : BitVec 52) (low : BitVec 3) :
    (S ++ e ++ g ++ low : W64) = S ++ e ++ (g ++ low) := by
  apply BitVec.eq_of_toNat_eq
  simp only [toNat_append_eq]
  ring

/-- Decoding on the kept and the discarded part of the fraction. -/
theorem ieeeOfVax_fields (S : BitVec 1) (e : BitVec 8) (g : BitVec 52) (low : BitVec 3) :
    ieeeOfVax (S ++ e ++ g ++ low) =
      S ++ (if e = 0#8 then 0#11 else BitVec.ofNat 11 (e.toNat + 894)) ++ (g ||| if low = 0#3 then 0#52 else 1#52) := by
  rw [append_fraction, ieeeOfVax_append, BitVec.extractLsb'_append_eq_left, BitVec.extractLsb'_append_eq_right]

theorem sticky_eq_zero_iff (low : BitVec 3) : (if low = 0#3 then 0#52 else 1#52) = 0#52 ↔ low = 0#3 := by
  split <;> simp_all

theorem fraction_eq_zero_iff (f : BitVec 55) : f.extractLsb' 3 52 = 0#52 ∧ f.extractLsb' 0 3 = 0#3 ↔ f = 0#55 := by
  constructor
  · rintro ⟨hkept, hlow⟩
    have hf : f.extractLsb' 3 52 ++ f.extractLsb' 0 3 = f := BitVec.extractLsb'_append_extractLsb' (w := 52) (len := 3)
    rw [← hf, hkept, hlow]
    rfl
  · rintro rfl
    decide

/-- Settles O44: the kept part and the sticky bit are 0 together exactly when the fraction is. -/
theorem vaxDecZeroExponent : Obligations.VaxDecZeroExponent := by
  intro S f
  refine ⟨f.extractLsb' 3 52 ||| if f.extractLsb' 0 3 = 0#3 then 0#52 else 1#52, ?_, ?_⟩
  · have hdec := gives_vaxdDec (S ++ 0#8 ++ f)
    rw [ieeeOfVax_append, if_pos rfl] at hdec
    exact hdec
  · rw [BitVec.or_eq_zero_iff, sticky_eq_zero_iff, fraction_eq_zero_iff]

/-! ### Saturation (R166) -/

/-- From exponent 1150 on the VAX pattern is the maximum magnitude with the sign of the input. -/
theorem gives_vaxdEnc_saturated (S : BitVec 1) {E : BitVec 11} (F : BitVec 52) (h : E.toNat ≥ 1150) :
    Gives 0x2100000000000000 (.w64s [S ++ E ++ F]) (.bytes (vaxLayout (S ++ BitVec.allOnes 63))) := by
  have henc := gives_vaxdEnc (S ++ E ++ F)
  rw [vaxOfIeee_append, if_pos h] at henc
  exact henc

/-- The bytes of the greatest positive VAX pattern. -/
theorem vaxLayout_greatest :
    vaxLayout (0#1 ++ BitVec.allOnes 63) = [0xFF, 0x7F, 0xFF, 0xFF, 0xFF, 0xFF, 0xFF, 0xFF] := by
  decide

/-- Settles O45, by the fields of each pattern. -/
theorem vaxEncSaturates : Obligations.VaxEncSaturates := by
  refine ⟨fun E F h => ⟨?_, ?_⟩, ?_, ?_, ?_⟩
  · rw [← vaxLayout_greatest]
    exact gives_vaxdEnc_saturated 0#1 F h
  · exact gives_vaxdEnc_saturated 1#1 F h
  · rw [← vaxLayout_greatest]
    exact gives_vaxdEnc_saturated 0#1 (E := 1150#11) 0#52 (by decide)
  · have hexact : vaxLayout (vaxOfIeee 0x47DFFFFFFFFFFFFF) = [0xFF, 0x7F, 0xFF, 0xFF, 0xFF, 0xFF, 0xF8, 0xFF] := by decide
    rw [← hexact]
    exact gives_vaxdEnc _
  · have hdec := gives_vaxdDec (0#1 ++ BitVec.allOnes 63)
    rw [vaxLayout_greatest] at hdec
    exact hdec

/-! ### Round trips -/

/-- The exponents that both formats hold: 895 to 1149 in one, 1 to 255 in the other (R163, R165). -/
theorem vaxOfIeee_of_exponent (S : BitVec 1) {E : BitVec 11} (F : BitVec 52) (hlow : 895 ≤ E.toNat)
    (hhigh : E.toNat ≤ 1149) :
    vaxOfIeee (S ++ E ++ F) = S ++ BitVec.ofNat 8 (E.toNat - 894) ++ F ++ 0#3 := by
  rw [vaxOfIeee_append, if_neg (by omega), if_neg (by omega)]

theorem ieeeOfVax_vaxOfIeee (S : BitVec 1) {E : BitVec 11} (F : BitVec 52) (hlow : 895 ≤ E.toNat)
    (hhigh : E.toNat ≤ 1149) :
    ieeeOfVax (vaxOfIeee (S ++ E ++ F)) = S ++ E ++ F := by
  have hexp : (BitVec.ofNat 8 (E.toNat - 894)).toNat = E.toNat - 894 := by
    rw [BitVec.toNat_ofNat]
    omega
  have hne : BitVec.ofNat 8 (E.toNat - 894) ≠ 0#8 := by
    intro h
    rw [h, BitVec.toNat_ofNat] at hexp
    omega
  have hback : BitVec.ofNat 11 (E.toNat - 894 + 894) = E := by
    rw [Nat.sub_add_cancel (by omega), BitVec.ofNat_toNat, BitVec.setWidth_eq]
  rw [vaxOfIeee_of_exponent S F hlow hhigh, ieeeOfVax_fields, if_neg hne, hexp, hback, if_pos rfl, BitVec.or_zero]

/-- The exponent that decoding gives to a VAX exponent other than 0. -/
theorem toNat_ieeeExponent (e : BitVec 8) : (BitVec.ofNat 11 (e.toNat + 894)).toNat = e.toNat + 894 := by
  rw [BitVec.toNat_ofNat]
  omega

theorem vaxOfIeee_ieeeOfVax (S : BitVec 1) {e : BitVec 8} (g : BitVec 52) (low : BitVec 3) (he : 1 ≤ e.toNat) :
    vaxOfIeee (ieeeOfVax (S ++ e ++ g ++ low)) = S ++ e ++ (g ||| if low = 0#3 then 0#52 else 1#52) ++ 0#3 := by
  have hne : e ≠ 0#8 := by
    rintro rfl
    exact absurd he (by decide)
  have hexp := toNat_ieeeExponent e
  have hback : BitVec.ofNat 8 (e.toNat + 894 - 894) = e := by
    rw [Nat.add_sub_cancel, BitVec.ofNat_toNat, BitVec.setWidth_eq]
  rw [ieeeOfVax_fields, if_neg hne, vaxOfIeee_of_exponent _ _ (by omega) (by omega), hexp, hback]

/-- The exponent field of a decoded pattern is never that of an infinity or NaN, and 0 only from 0. -/
theorem ieeeExponent_range (e : BitVec 8) :
    (if e = 0#8 then 0#11 else BitVec.ofNat 11 (e.toNat + 894)) ≠ 2047#11 ∧
      ((if e = 0#8 then 0#11 else BitVec.ofNat 11 (e.toNat + 894)) = 0#11 ↔ e = 0#8) := by
  split
  · simp_all
  · have hexp := toNat_ieeeExponent e
    refine ⟨fun h => ?_, iff_of_false (fun h => ?_) ‹_›⟩ <;>
      (rw [h, BitVec.toNat_ofNat] at hexp; omega)

/-- Settles O47, by the exponents that both formats hold and the fraction bits that decoding discards. -/
theorem vaxRoundTrips : Obligations.VaxRoundTrips := by
  refine ⟨fun S E F hlow hhigh => ?_, fun S e g low he => ?_, fun S e f => ⟨_, gives_vaxdDec _, ?_⟩⟩
  · have hdec := gives_vaxdDec (vaxOfIeee (S ++ E ++ F))
    rw [ieeeOfVax_vaxOfIeee S F hlow hhigh] at hdec
    exact ⟨_, gives_vaxdEnc _, hdec⟩
  · refine ⟨_, gives_vaxdDec _, ?_⟩
    rw [← vaxOfIeee_ieeeOfVax S g low he]
    exact gives_vaxdEnc _
  · rw [ieeeOfVax_append, extractLsb'_append₃_middle]
    exact ieeeExponent_range e

/-! ### Radix-50 (R170 to R176) -/

/-- The value of a character decodes to the character in upper case. -/
theorem R50Symbol.r50CharOut_eq {c : CharCode} {v : Nat} (h : R50Symbol c v) : r50CharOut v = upperCase c := by
  unfold R50Symbol at h
  apply BitVec.eq_of_toNat_eq
  unfold r50CharOut upperCase
  split_ifs <;> simp only [BitVec.toNat_ofNat, BitVec.ofNat_eq_ofNat, BitVec.toNat_sub] <;> omega

/-- The character that comes back from slot `i`: the character there in upper case, or a space where there is none. -/
def slotBack (cs : List CharCode) (i : Nat) : CharCode :=
  (cs[i]?.map upperCase).getD 0x20

theorem exists_r50Slot {cs : List CharCode} (h : ∀ c ∈ cs.take 3, ∃ v, R50Symbol c v) {i : Nat} (hi : i < 3) :
    ∃ v, R50Slot cs i v ∧ r50CharOut v = slotBack cs i := by
  unfold R50Slot slotBack
  cases hget : cs[i]? with
  | none => exact ⟨0, .inr ⟨rfl, rfl⟩, rfl⟩
  | some c =>
    have hmem : c ∈ cs.take 3 := List.mem_of_getElem? ((List.getElem?_take_of_lt hi).trans hget)
    obtain ⟨v, hv⟩ := h c hmem
    exact ⟨v, .inl ⟨c, rfl, hv⟩, hv.r50CharOut_eq⟩

/-- The three slots together: the first three characters in upper case, padded with spaces. -/
theorem slotBack_list (cs : List CharCode) :
    [slotBack cs 0, slotBack cs 1, slotBack cs 2] = (cs.take 3).map upperCase ++ List.replicate (3 - cs.length) 0x20 := by
  match cs with
  | [] => rfl
  | [_] => rfl
  | [_, _] => rfl
  | _ :: _ :: _ :: _ => simp [slotBack]

/-- The character of a symbol value has that value again, but for the unused one (R175). -/
theorem r50Symbol_r50CharOut {q : Nat} (hq : q < 40) : R50Symbol (r50CharOut q) (withoutUnused q) := by
  have hvalue : ∀ q < 40, r50Value (r50CharOut q) = some (withoutUnused q) := by decide
  exact r50Value_eq_some_iff.mp (hvalue q hq)

theorem gives_r50Enc {cs : List CharCode} {v0 v1 v2 : Nat} (h0 : R50Slot cs 0 v0) (h1 : R50Slot cs 1 v1)
    (h2 : R50Slot cs 2 v2) :
    Gives 0x2200000000000000 (.chars cs) (.w16s [BitVec.ofNat 16 (v0 * 1600 + v1 * 40 + v2)]) :=
  gives_of_resultOf r50EncCode.1 cs (r50Encode_code h0 h1 h2)

theorem gives_r50Dec {code : W16} (h : code.toNat ≤ 63999) :
    Gives 0x2A00000000000000 (.w16s [code])
      (.chars [r50CharOut (code.toNat / 1600), r50CharOut (code.toNat % 1600 / 40), r50CharOut (code.toNat % 40)]) :=
  gives_of_resultOf r50DecString.1 [code] (r50Decode_string h)

/-- Settles O50: three values below 40 are the digits of the code they make, and each digit's character has its value. -/
theorem radix50Inverses : Obligations.Radix50Inverses := by
  refine ⟨fun cs hcs => ?_, fun code hcode => ?_⟩
  · obtain ⟨v0, hslot0, hback0⟩ := exists_r50Slot hcs (i := 0) (by decide)
    obtain ⟨v1, hslot1, hback1⟩ := exists_r50Slot hcs (i := 1) (by decide)
    obtain ⟨v2, hslot2, hback2⟩ := exists_r50Slot hcs (i := 2) (by decide)
    have hlt0 := hslot0.lt_forty
    have hlt1 := hslot1.lt_forty
    have hlt2 := hslot2.lt_forty
    have hcode : (BitVec.ofNat 16 (v0 * 1600 + v1 * 40 + v2)).toNat = v0 * 1600 + v1 * 40 + v2 := by
      rw [BitVec.toNat_ofNat]
      omega
    have hdigit0 : (v0 * 1600 + v1 * 40 + v2) / 1600 = v0 := by omega
    have hdigit1 : (v0 * 1600 + v1 * 40 + v2) % 1600 / 40 = v1 := by omega
    have hdigit2 : (v0 * 1600 + v1 * 40 + v2) % 40 = v2 := by omega
    have hdec := gives_r50Dec (code := BitVec.ofNat 16 (v0 * 1600 + v1 * 40 + v2)) (by omega)
    rw [hcode, hdigit0, hdigit1, hdigit2, hback0, hback1, hback2, slotBack_list] at hdec
    exact ⟨_, gives_r50Enc hslot0 hslot1 hslot2, hdec⟩
  · exact ⟨_, gives_r50Dec hcode, gives_r50Enc (.inl ⟨_, rfl, r50Symbol_r50CharOut (by omega)⟩)
      (.inl ⟨_, rfl, r50Symbol_r50CharOut (by omega)⟩) (.inl ⟨_, rfl, r50Symbol_r50CharOut (by omega)⟩)⟩

end Sys2Proof.Machine

/-! PROOFS. The laws of the textual codec (43_textual_binary.md section 4): a string of '0' and '1' is a vector of bits, and
a packed sequence of bytes is a numeral whose bits are theirs, the first byte the lowest. -/

namespace Sys2Proof.Machine

/-! ### Strings of '0' and '1' -/

theorem decide_charOfBit (b : Bit) : decide (charOfBit b = 0x31) = b := by
  cases b <;> rfl

theorem charOfBit_binary (b : Bit) : charOfBit b = 0x30 ∨ charOfBit b = 0x31 := by
  cases b
  · exact .inl rfl
  · exact .inr rfl

theorem charOfBit_of_binary {c : CharCode} (h : c = 0x30 ∨ c = 0x31) : charOfBit (decide (c = 0x31)) = c := by
  rcases h with rfl | rfl <;> rfl

/-- The bits of a string of '0' and '1'. -/
def stringBits (cs : List CharCode) : List Bit :=
  cs.map fun c => decide (c = 0x31)

@[simp] theorem stringBits_map_charOfBit (v : List Bit) : stringBits (v.map charOfBit) = v := by
  rw [stringBits, List.map_map]
  exact (List.map_congr_left fun b _ => decide_charOfBit b).trans (List.map_id v)

theorem map_charOfBit_stringBits {cs : List CharCode} (h : ∀ c ∈ cs, c = 0x30 ∨ c = 0x31) :
    (stringBits cs).map charOfBit = cs := by
  rw [stringBits, List.map_map]
  exact (List.map_congr_left fun c hc => charOfBit_of_binary (h c hc)).trans (List.map_id cs)

theorem binary_of_mem_map_charOfBit {v : List Bit} {c : CharCode} (hc : c ∈ v.map charOfBit) : c = 0x30 ∨ c = 0x31 := by
  obtain ⟨b, -, rfl⟩ := List.mem_map.mp hc
  exact charOfBit_binary b

/-- A string of '0' and '1' has no spaces to strip. -/
theorem filter_space_of_binary {cs : List CharCode} (h : ∀ c ∈ cs, c = 0x30 ∨ c = 0x31) :
    cs.filter (· ≠ 0x20) = cs := by
  refine List.filter_eq_self.mpr fun c hc => ?_
  rcases h c hc with rfl | rfl <;> decide

/-- What is left of a string of '0', '1' and spaces is a string of '0' and '1'. -/
theorem binary_of_mem_filter {cs : List CharCode} (h : ∀ c ∈ cs, c = 0x30 ∨ c = 0x31 ∨ c = 0x20) {c : CharCode}
    (hc : c ∈ cs.filter (· ≠ 0x20)) : c = 0x30 ∨ c = 0x31 := by
  obtain ⟨hmem, hspace⟩ : c ∈ cs ∧ c ≠ 0x20 := by simpa using hc
  exact (or_assoc.mpr (h c hmem)).resolve_right hspace

/-! ### Numerals and packed bytes (R193, R194) -/

/-- The bits of the numeral that packed bytes hold, bit 0 first. -/
def numeralBits (bs : List Byte) : List Bit :=
  bs.flatMap (bitsOf .lsbFirst 8)

@[simp] theorem numeralBits_cons (b : Byte) (bs : List Byte) :
    numeralBits (b :: bs) = bitsOf .lsbFirst 8 b ++ numeralBits bs := rfl

@[simp] theorem numeralBits_length (bs : List Byte) : (numeralBits bs).length = 8 * bs.length := by
  simp [numeralBits, List.length_flatMap, Nat.mul_comm]

/-- P2S prints the numeral, its bit 0 last. -/
theorem printedBytes_eq (bs : List Byte) :
    bs.reverse.flatMap byteString = (numeralBits bs).reverse.map charOfBit := by
  induction bs with
  | nil => rfl
  | cons b bs ih =>
    rw [List.reverse_cons, List.flatMap_append, ih, numeralBits_cons, List.reverse_append, List.map_append,
      ← bitsOf_msbFirst_eq_reverse, List.flatMap_singleton, byteString]

/-- The bits of a byte make it up again. -/
theorem ofNat_natOfBitsLsb_bitsOf (b : Byte) : BitVec.ofNat 8 (natOfBitsLsb (bitsOf .lsbFirst 8 b)) = b := by
  rw [natOfBitsLsb_bitsOf, Nat.mod_eq_of_lt b.isLt, BitVec.ofNat_toNat, BitVec.setWidth_eq]

/-- Up to eight bits are the lowest bits of the byte they make, whose other bits are 0. -/
theorem bitsOf_ofNat_natOfBitsLsb {v : List Bit} (h : v.length ≤ 8) :
    bitsOf .lsbFirst 8 (BitVec.ofNat 8 (natOfBitsLsb v)) = v ++ List.replicate (8 - v.length) false := by
  rw [bitsOf_lsbFirst]
  apply List.ext_getElem
  · simp only [List.length_map, List.length_range, List.length_append, List.length_replicate]
    omega
  · intro i hi _
    have hi8 : i < 8 := by simpa using hi
    rw [List.getElem_map, List.getElem_range, BitVec.getLsbD_ofNat, testBit_natOfBitsLsb, List.getElem_append]
    split <;> simp_all [List.getD_eq_getElem?_getD]

/-- Packing the bits of packed bytes gives the bytes back. -/
theorem packBits_numeralBits (bs : List Byte) : packBits bs.length (numeralBits bs) = bs := by
  induction bs with
  | nil => rfl
  | cons b bs ih =>
    rw [List.length_cons, packBits, numeralBits_cons, List.take_left' (bitsOf_length _ _ _),
      List.drop_left' (bitsOf_length _ _ _), ofNat_natOfBitsLsb_bitsOf, ih]

/-- The bits of a packed numeral are its own, and 0 up to whole bytes. -/
theorem numeralBits_packBits {n : Nat} {v : List Bit} (h : v.length ≤ 8 * n) :
    numeralBits (packBits n v) = v ++ List.replicate (8 * n - v.length) false := by
  induction n generalizing v with
  | zero =>
    obtain rfl : v = [] := List.eq_nil_of_length_eq_zero (by omega)
    rfl
  | succ n ih =>
    have hdrop : (v.drop 8).length ≤ 8 * n := by
      rw [List.length_drop]
      omega
    rw [packBits, numeralBits_cons, ih hdrop, bitsOf_ofNat_natOfBitsLsb (List.length_take_le 8 v)]
    rcases Nat.le_total 8 v.length with hlong | hshort
    · have hpad : 8 * n - (v.drop 8).length = 8 * (n + 1) - v.length := by
        rw [List.length_drop]
        omega
      rw [List.length_take_of_le hlong, hpad, Nat.sub_self, List.replicate_zero, List.append_nil, ← List.append_assoc,
        List.take_append_drop]
    · have hpad : 8 - v.length + 8 * n = 8 * (n + 1) - v.length := by omega
      rw [List.take_of_length_le hshort, List.drop_eq_nil_of_le hshort, List.nil_append, List.length_nil, Nat.sub_zero,
        List.append_assoc, List.replicate_append_replicate, hpad]

/-! ### What each operation gives -/

theorem gives_s2v {cs : List CharCode} (h : ∀ c ∈ cs, c = 0x30 ∨ c = 0x31) :
    Gives 0x3000000000000000 (.chars cs) (.bits (stringBits cs)) :=
  gives_of_resultOf s2vBits.1 cs (stringToBits_bits h)

theorem gives_v2s (v : List Bit) : Gives 0x3800000000000000 (.bits v) (.chars (v.map charOfBit)) :=
  gives_of_resultOf v2sString.1 v rfl

theorem gives_s2p {cs : List CharCode} (h : ∀ c ∈ cs, c = 0x30 ∨ c = 0x31 ∨ c = 0x20) :
    Gives 0x3100000000000000 (.chars cs) (.bytes (packBits (((cs.filter (· ≠ 0x20)).length + 7) / 8)
      (stringBits (cs.filter (· ≠ 0x20))).reverse)) :=
  gives_of_resultOf s2pPackedBytes.1 cs (stringToPackedBytes_bytes h)

/-- S2P of a string of '0' and '1'. -/
theorem gives_s2p_binary {cs : List CharCode} (h : ∀ c ∈ cs, c = 0x30 ∨ c = 0x31) :
    Gives 0x3100000000000000 (.chars cs) (.bytes (packBits ((cs.length + 7) / 8) (stringBits cs).reverse)) := by
  have hs2p := gives_s2p fun c hc => (h c hc).imp_right .inl
  rwa [filter_space_of_binary h] at hs2p

theorem gives_p2s (bs : List Byte) :
    Gives 0x3900000000000000 (.bytes bs) (.chars ((numeralBits bs).reverse.map charOfBit)) :=
  gives_of_resultOf p2sString.1 bs (congrArg (fun cs => Result.complete (.chars cs)) (printedBytes_eq bs))

/-! ### The laws -/

theorem s2v_then_v2s {cs : List CharCode} (h : ∀ c ∈ cs, c = 0x30 ∨ c = 0x31) :
    ∃ v, Gives 0x3000000000000000 (.chars cs) v ∧ Gives 0x3800000000000000 v (.chars cs) := by
  have hback := gives_v2s (stringBits cs)
  rw [map_charOfBit_stringBits h] at hback
  exact ⟨_, gives_s2v h, hback⟩

theorem v2s_then_s2v (v : List Bit) :
    ∃ cs, Gives 0x3800000000000000 (.bits v) cs ∧ Gives 0x3000000000000000 cs (.bits v) := by
  have hback := gives_s2v (cs := v.map charOfBit) fun _ => binary_of_mem_map_charOfBit
  rw [stringBits_map_charOfBit] at hback
  exact ⟨_, gives_v2s v, hback⟩

theorem p2s_then_s2p (bs : List Byte) :
    ∃ cs, Gives 0x3900000000000000 (.bytes bs) cs ∧ Gives 0x3100000000000000 cs (.bytes bs) := by
  have hback := gives_s2p_binary (cs := (numeralBits bs).reverse.map charOfBit) fun _ => binary_of_mem_map_charOfBit
  have hcount : (8 * bs.length + 7) / 8 = bs.length := by omega
  rw [stringBits_map_charOfBit, List.reverse_reverse, List.length_map, List.length_reverse, numeralBits_length, hcount,
    packBits_numeralBits] at hback
  exact ⟨_, gives_p2s bs, hback⟩

/-- The string without its spaces, padded with '0' on the left to whole bytes. -/
theorem s2p_then_p2s {cs : List CharCode} (h : ∀ c ∈ cs, c = 0x30 ∨ c = 0x31 ∨ c = 0x20) :
    ∃ b, Gives 0x3100000000000000 (.chars cs) b ∧
      Gives 0x3900000000000000 b (.chars
        (List.replicate (((cs.filter (· ≠ 0x20)).length + 7) / 8 * 8 - (cs.filter (· ≠ 0x20)).length) 0x30
          ++ cs.filter (· ≠ 0x20))) := by
  refine ⟨_, gives_s2p h, ?_⟩
  have hbinary : ∀ c ∈ cs.filter (· ≠ 0x20), c = 0x30 ∨ c = 0x31 := fun _ => binary_of_mem_filter h
  generalize cs.filter (· ≠ 0x20) = t at hbinary ⊢
  have hlength : (stringBits t).reverse.length = t.length := by simp [stringBits]
  have hfits : (stringBits t).reverse.length ≤ 8 * ((t.length + 7) / 8) := by omega
  have hprinted : (numeralBits (packBits ((t.length + 7) / 8) (stringBits t).reverse)).reverse.map charOfBit =
      List.replicate ((t.length + 7) / 8 * 8 - t.length) 0x30 ++ t := by
    rw [numeralBits_packBits hfits, hlength, List.reverse_append, List.reverse_reverse, List.reverse_replicate,
      List.map_append, List.map_replicate, map_charOfBit_stringBits hbinary, Nat.mul_comm]
    rfl
  rw [← hprinted]
  exact gives_p2s _

/-- Eight characters are one byte, in either of two ways. -/
theorem s2v_then_v2bB_eq_s2p {cs : List CharCode} (hlen : cs.length = 8) (h : ∀ c ∈ cs, c = 0x30 ∨ c = 0x31) :
    ∃ v b, Gives 0x3000000000000000 (.chars cs) v ∧ Gives 0x1800000000000000 v b ∧
      Gives 0x3100000000000000 (.chars cs) b := by
  have hbits : (stringBits cs).length = 8 := by rw [stringBits, List.length_map, hlen]
  have hbyte : packBits ((cs.length + 7) / 8) (stringBits cs).reverse
      = [BitVec.ofNat 8 (natOfBits .msbFirst (stringBits cs))] := by
    have hall : (stringBits cs).reverse.take 8 = (stringBits cs).reverse :=
      List.take_of_length_le (by rw [List.length_reverse, hbits])
    rw [hlen]
    change [BitVec.ofNat 8 (natOfBitsLsb ((stringBits cs).reverse.take 8))] = _
    rw [hall, natOfBits]
  have hs2p := gives_s2p_binary h
  rw [hbyte] at hs2p
  exact ⟨_, _, gives_s2v h, gives_v2bB .msbFirst (by omega) (by omega), hs2p⟩

/-- Settles O55, law by law. -/
theorem textualInverses : Obligations.TextualInverses :=
  ⟨fun _ => s2v_then_v2s, v2s_then_s2v, p2s_then_s2p, fun _ => s2p_then_p2s, fun _ => s2v_then_v2bB_eq_s2p⟩

end Sys2Proof.Machine

/-! PROOFS. Host programs (30_encoding.md R92; log entry 15): a source of the operation's type is one transaction, a line
that completes leaves an environment of the types the check expects, and a run goes on line by line. -/

namespace Sys2Proof.Machine

/-! ### One line -/

/-- The item types of the buffers of an environment. -/
def Env.types (env : Env) : TypeEnv :=
  env.map fun entry => (entry.1, entry.2.itemType)

theorem Env.lookup_types (env : Env) (n : Name) : env.types.lookup n = (env.lookup n).map Items.itemType := by
  induction env with
  | nil => rfl
  | cons entry env ih =>
    rw [Env.types, List.map_cons, List.lookup_cons, List.lookup_cons]
    split
    · rfl
    · exact ih

/-- Binding a buffer changes its item type alone. -/
theorem Env.types_set (env : Env) (dst : Name) (out : Items) :
    (env.set dst out).types = (dst, out.itemType) :: env.types.filter fun entry => entry.1 ≠ dst := by
  simp only [Env.types, Env.set, List.map_cons, List.filter_map]
  rfl

/-- What a source of the operation's type puts on the ports: an input of that type, or none. -/
theorem Source.exists_ports {src : Source} {env : Env} {t : ItemType} (h : src.typedFor env.types t = true) :
    ∃ present x, src.ports env = some (present, x) ∧ (present = true → x.hasType t = true) := by
  cases src with
  | name n =>
    rw [Source.typedFor, Env.lookup_types] at h
    cases hx : env.lookup n with
    | none => simp [hx] at h
    | some x =>
      refine ⟨true, x, by rw [Source.ports, hx, Option.map_some], fun _ => ?_⟩
      rw [hx, Option.map_some] at h
      unfold Items.hasType
      cases htype : x.itemType with
      | none => rfl
      | some t' => simpa [htype] using h
  | literal x => exact ⟨true, x, rfl, fun _ => h⟩
  | absent => exact ⟨false, .empty, rfl, fun hp => absurd hp Bool.false_ne_true⟩

/-- A legal word with an input of its type is answered, and an output of an OK answer has the operation's type. -/
theorem exists_transaction_typed {i : Instr} (hwf : i.wellFormed = true) {present : Bool} {x : Items}
    (h : present = true → x.hasType (inputType i) = true) :
    ∃ r, transaction (encode i) present x = some r ∧ (r.status = .ok → r.out.itemType = some (outputType i)) := by
  obtain ⟨p, hp⟩ : ∃ p, portAs (inputType i).view (if present then some x else none) = some p := by
    cases present with
    | false => exact ⟨none, rfl⟩
    | true =>
      obtain ⟨xs, hxs⟩ := Option.isSome_iff_exists.mp ((ItemType.view_isSome _ x).trans (h rfl))
      exact ⟨some xs, by simp [portAs, hxs]⟩
  refine ⟨_, transaction_encode hwf hp, fun hok => ?_⟩
  rcases resultOf_allowed i (p.getD []) with ⟨out, hr, htype, -⟩ | ⟨st, hst, hr⟩
  · rw [hr]
    exact htype
  · rw [hr] at hok
    exact absurd ((show st = .ok from hok) ▸ hst) (ok_notMem_conditionsOf i)

/-- The check of the first line of a program in an environment. -/
def Line.OkIn (l : Line) (env : Env) : Prop :=
  l.instr.wellFormed = true ∧ l.src.typedFor env.types (inputType l.instr) = true

/-- A checked line is one transaction; when it is answered OK, its output has the type the check expects of it. -/
theorem Line.OkIn.exists_transaction {l : Line} {env : Env} (h : l.OkIn env) :
    ∃ p r, l.src.ports env = some p ∧ transaction (encode l.instr) p.1 p.2 = some r ∧
      (r.status = .ok → r.out.itemType = some (outputType l.instr)) := by
  obtain ⟨hwf, htyped⟩ := h
  obtain ⟨present, x, hports, hx⟩ := Source.exists_ports htyped
  obtain ⟨r, hr, htype⟩ := exists_transaction_typed hwf hx
  exact ⟨(present, x), r, hports, hr, htype⟩

/-- A program is checked line by line, each binding its destination's type. -/
theorem programOk_cons {l : Line} {ls : List Line} {env : Env} :
    programOk env.types (l :: ls) = true ↔ l.OkIn env ∧
      programOk ((l.dst, some (outputType l.instr)) :: env.types.filter fun entry => entry.1 ≠ l.dst) ls = true := by
  rw [programOk, Bool.and_eq_true, Bool.and_eq_true]
  rfl

/-- The check of the lines before another program. -/
theorem programOk_of_append {types : TypeEnv} {ls more : List Line} (h : programOk types (ls ++ more) = true) :
    programOk types ls = true := by
  induction ls generalizing types with
  | nil => rfl
  | cons l ls ih =>
    rw [List.cons_append, programOk, Bool.and_eq_true] at h
    obtain ⟨hline, hrest⟩ := h
    rw [programOk, hline, ih hrest]
    rfl

/-! ### Runs of lines -/

/-- How the first line of a run goes, once its ports and its answer are known. -/
theorem runLines_cons {k : Nat} {l : Line} {ls : List Line} {env : Env} {p : Bool × Items} {r : Result}
    (hp : l.src.ports env = some p) (hr : transaction (encode l.instr) p.1 p.2 = some r) :
    runLines k (l :: ls) env =
      if r.status = .ok then runLines (k + 1) ls (env.set l.dst r.out) else .stopped k r.status env := by
  rw [runLines, hp]
  simp only [hr]

/-- A checked program that completes leaves an environment in which the lines after it are checked, and runs on with them. -/
theorem runLines_append_of_completed {ls more : List Line} {k : Nat} {env e : Env}
    (hok : programOk env.types (ls ++ more) = true) (h : runLines k ls env = .completed e) :
    programOk e.types more = true ∧ runLines k (ls ++ more) env = runLines (k + ls.length) more e := by
  induction ls generalizing k env with
  | nil =>
    cases h
    exact ⟨hok, rfl⟩
  | cons l ls ih =>
    obtain ⟨hline, hrest⟩ := programOk_cons.mp hok
    obtain ⟨p, r, hp, hr, htype⟩ := hline.exists_transaction
    rw [runLines_cons hp hr] at h
    rw [List.cons_append, runLines_cons hp hr]
    split at h
    · have hok' : programOk (env.set l.dst r.out).types (ls ++ more) = true := by rwa [Env.types_set, htype ‹_›]
      obtain ⟨hmore, hrun⟩ := ih hok' h
      refine ⟨hmore, ?_⟩
      rw [if_pos ‹_›, hrun, List.length_cons, Nat.add_right_comm, Nat.add_assoc]
    · cases h

/-- A checked program that has stopped stays stopped. -/
theorem runLines_append_of_stopped {ls more : List Line} {k j : Nat} {env e : Env} {st : Status}
    (hok : programOk env.types ls = true) (h : runLines k ls env = .stopped j st e) :
    runLines k (ls ++ more) env = .stopped j st e := by
  induction ls generalizing k env with
  | nil => cases h
  | cons l ls ih =>
    obtain ⟨hline, hrest⟩ := programOk_cons.mp hok
    obtain ⟨p, r, hp, hr, htype⟩ := hline.exists_transaction
    rw [runLines_cons hp hr] at h
    rw [List.cons_append, runLines_cons hp hr]
    split at h
    · rw [if_pos ‹_›]
      exact ih (by rwa [Env.types_set, htype ‹_›]) h
    · rwa [if_neg ‹_›]

/-! ### Programs -/

theorem runProgram_of_ok {env : Env} {ls : List Line} (h : programOk env.types ls = true) :
    runProgram env ls = runLines 1 ls env :=
  if_pos h

theorem runProgram_of_not_ok {env : Env} {ls : List Line} (h : programOk env.types ls = false) :
    runProgram env ls = .illFormed :=
  if_neg (Bool.eq_false_iff.mp h)

/-- Settles O57: the line after a completed run is checked where it runs, and so is one transaction. -/
theorem hostProgramLineByLine : Obligations.HostProgramLineByLine := by
  intro env
  refine ⟨rfl, fun ls => runProgram_of_not_ok, fun ls l e hok h => ?_, fun ls more k st e hok h => ?_⟩
  · rw [runProgram_of_ok (programOk_of_append hok)] at h
    obtain ⟨hlast, hrun⟩ := runLines_append_of_completed hok h
    obtain ⟨hline, -⟩ := programOk_cons.mp hlast
    obtain ⟨p, r, hp, hr, -⟩ := hline.exists_transaction
    refine ⟨p, r, hp, hr, ?_⟩
    rw [runProgram_of_ok hok, hrun, runLines_cons hp hr, runLines, Nat.add_comm 1 ls.length]
  · rw [runProgram_of_ok (programOk_of_append hok)] at h
    rw [runProgram_of_ok hok]
    exact runLines_append_of_stopped (programOk_of_append hok) h

end Sys2Proof.Machine
